-- ==== Sys2Proof/Word.lean ====
section
/-! DEFINITION. The word types of dip CORE (00_scope.md rules R5, R9; 10_state.md rules R20, R25, R26). -/

namespace Sys2Proof

/-- A general register, a timer, a memory cell: 8 bits (`XLEN`, 00_scope.md R5). -/
abbrev Byte := BitVec 8

/-- I, pc, a stack slot, an instruction word: 16 bits (`ALEN`, 00_scope.md R5). -/
abbrev Word := BitVec 16

/-- The number of a general register, 0..15: "decoded index is always 0-15 by construction"
(10_state.md R20). -/
abbrev Reg := Fin 16

/-- V0, read implicitly by JP V0, nnn (10_state.md R21). -/
abbrev regV0 : Reg := 0

/-- VF, the carry, not-borrow and collision flag (10_state.md R22). -/
abbrev regVF : Reg := 15

/-- The sixteen key levels of one step; `true` is held (10_state.md R33). -/
abbrev Keys := Vector Bool 16

/-- A random draw of RND: any value in 0..254, `RND_MAX` = 254 (00_scope.md R5, 42_immediate.md R122). -/
abbrev RandomDraw := Fin 255

end Sys2Proof
end

