-- ==== Sys2Proof/Syntax.lean ====
section
/-! DEFINITION. The 25 instructions of dip CORE (30_encoding.md rule R78), one constructor per row of
spec/opcode_table.json, in the table's order. -/

namespace Sys2Proof

/-- An instruction: its mnemonic and the operand fields of its word (30_encoding.md R71, R72). -/
inductive Instr where
  /-- CLS (40_control_system.md R101). -/
  | cls
  /-- RET (40_control_system.md R102). -/
  | ret
  /-- SYS nnn (40_control_system.md R100). -/
  | sys (nnn : BitVec 12)
  /-- JP nnn (40_control_system.md R103). -/
  | jp (nnn : BitVec 12)
  /-- CALL nnn (40_control_system.md R104). -/
  | call (nnn : BitVec 12)
  /-- SE Vx, kk (41_skip.md R110). -/
  | seByte (x : Reg) (kk : Byte)
  /-- SNE Vx, kk (41_skip.md R111). -/
  | sneByte (x : Reg) (kk : Byte)
  /-- LD Vx, kk (42_immediate.md R120). -/
  | ldByte (x : Reg) (kk : Byte)
  /-- ADD Vx, kk (42_immediate.md R121). -/
  | addByte (x : Reg) (kk : Byte)
  /-- LD Vx, Vy (43_register_alu.md R130). -/
  | ldReg (x y : Reg)
  /-- AND Vx, Vy (43_register_alu.md R131). -/
  | andReg (x y : Reg)
  /-- ADD Vx, Vy (43_register_alu.md R132). -/
  | addReg (x y : Reg)
  /-- SUB Vx, Vy (43_register_alu.md R133). -/
  | subReg (x y : Reg)
  /-- LD I, nnn (44_index_memory.md R140). -/
  | ldI (nnn : BitVec 12)
  /-- JP V0, nnn (40_control_system.md R105). -/
  | jpV0 (nnn : BitVec 12)
  /-- RND Vx, kk (42_immediate.md R122). -/
  | rnd (x : Reg) (kk : Byte)
  /-- DRW Vx, Vy, n (45_draw.md R150). -/
  | drw (x y : Reg) (n : BitVec 4)
  /-- SKNP Vx (41_skip.md R112). -/
  | sknp (x : Reg)
  /-- LD Vx, DT (46_timer.md R160). -/
  | ldFromDT (x : Reg)
  /-- LD DT, Vx (46_timer.md R161). -/
  | ldDT (x : Reg)
  /-- LD ST, Vx (46_timer.md R162). -/
  | ldST (x : Reg)
  /-- ADD I, Vx (44_index_memory.md R141). -/
  | addI (x : Reg)
  /-- LD F, Vx (44_index_memory.md R142). -/
  | ldF (x : Reg)
  /-- LD B, Vx (44_index_memory.md R143). -/
  | ldB (x : Reg)
  /-- LD [I], Vx (44_index_memory.md R144). -/
  | ldMem (x : Reg)
  deriving DecidableEq, Repr

end Sys2Proof
end

