-- ==== Sys2Proof/WellFormed.lean ====
section
/-! DEFINITION. Which instruction terms have a word. The operand types already hold every field to its
width, so the one check left is the priority of CLS and RET over SYS (30_encoding.md rule R74). -/

namespace Sys2Proof

/-- The low byte that makes a word of group 0 a CLS (30_encoding.md R73). -/
abbrev clsLow : Byte := 0xE0

/-- The low byte that makes a word of group 0 a RET (30_encoding.md R73). -/
abbrev retLow : Byte := 0xEE

/-- SYS nnn cannot be encoded when the low byte of nnn is that of CLS or of RET: "those words are CLS
and RET" (40_control_system.md R100). -/
def sysOperandOk (nnn : BitVec 12) : Bool :=
  nnn.extractLsb' 0 8 != clsLow && nnn.extractLsb' 0 8 != retLow

/-- The instruction has a word of its own. -/
def WellFormed : Instr → Bool
  | .sys nnn => sysOperandOk nnn
  | .cls => true
  | .ret => true
  | .jp _ => true
  | .call _ => true
  | .seByte _ _ => true
  | .sneByte _ _ => true
  | .ldByte _ _ => true
  | .addByte _ _ => true
  | .ldReg _ _ => true
  | .andReg _ _ => true
  | .addReg _ _ => true
  | .subReg _ _ => true
  | .ldI _ => true
  | .jpV0 _ => true
  | .rnd _ _ => true
  | .drw _ _ _ => true
  | .sknp _ => true
  | .ldFromDT _ => true
  | .ldDT _ => true
  | .ldST _ => true
  | .addI _ => true
  | .ldF _ => true
  | .ldB _ => true
  | .ldMem _ => true

end Sys2Proof
end

