-- ==== Sys2Proof/Decode.lean ====
section
/-! DEFINITION. The decoder and the encoder (30_encoding.md rules R71 to R74, R78, R79). The opcode
numbers and the places of x and y are UNVERIFIED: the spec takes them from general knowledge of the
architecture (93_implementation_defined.md G1, G2; log entry 10; unsafe). -/

namespace Sys2Proof

/-- Why bytes are no instruction. -/
inductive DecodeReject where
  /-- "Any opcode not matching a known pattern is an unknown-opcode condition" (30_encoding.md R79). -/
  | unknownOpcode (op : Word)
  /-- Fewer than the two bytes every instruction has (30_encoding.md R70). No step raises it: a fetch
  always reads two bytes. -/
  | truncated
  deriving DecidableEq, Repr

/-- `op[15:12]`, the top nibble (30_encoding.md R71). -/
def topNibble (op : Word) : BitVec 4 := op.extractLsb' 12 4

/-- `nnn = op[11:0]` (30_encoding.md R72). -/
def fieldNNN (op : Word) : BitVec 12 := op.extractLsb' 0 12

/-- `x = op[11:8]` (30_encoding.md R72). -/
def fieldX (op : Word) : Reg := (op.extractLsb' 8 4).toFin

/-- `y = op[7:4]` (30_encoding.md R72). -/
def fieldY (op : Word) : Reg := (op.extractLsb' 4 4).toFin

/-- `kk = op[7:0]`, also the secondary key of groups 0, E and F (30_encoding.md R72, R74). -/
def fieldKK (op : Word) : Byte := op.extractLsb' 0 8

/-- `n = op[3:0]`, also the secondary key of group 8 (30_encoding.md R72, R74). -/
def fieldN (op : Word) : BitVec 4 := op.extractLsb' 0 4

/-- Group 0: keyed by the low byte alone, SYS being the fall-through (30_encoding.md R73, R74). -/
def decodeGroup0 (op : Word) : Except DecodeReject Instr :=
  if fieldKK op = clsLow then .ok .cls
  else if fieldKK op = retLow then .ok .ret
  else .ok (.sys (fieldNNN op))

/-- Group 8: keyed by the low nibble (30_encoding.md R73, R74). -/
def decodeGroup8 (op : Word) : Except DecodeReject Instr :=
  if fieldN op = 0x0 then .ok (.ldReg (fieldX op) (fieldY op))
  else if fieldN op = 0x2 then .ok (.andReg (fieldX op) (fieldY op))
  else if fieldN op = 0x4 then .ok (.addReg (fieldX op) (fieldY op))
  else if fieldN op = 0x5 then .ok (.subReg (fieldX op) (fieldY op))
  else .error (.unknownOpcode op)

/-- Group E: keyed by the whole low byte (30_encoding.md R73, R74). -/
def decodeGroupE (op : Word) : Except DecodeReject Instr :=
  if fieldKK op = 0xA1 then .ok (.sknp (fieldX op))
  else .error (.unknownOpcode op)

/-- Group F: keyed by the whole low byte (30_encoding.md R73, R74). -/
def decodeGroupF (op : Word) : Except DecodeReject Instr :=
  if fieldKK op = 0x07 then .ok (.ldFromDT (fieldX op))
  else if fieldKK op = 0x15 then .ok (.ldDT (fieldX op))
  else if fieldKK op = 0x18 then .ok (.ldST (fieldX op))
  else if fieldKK op = 0x1E then .ok (.addI (fieldX op))
  else if fieldKK op = 0x29 then .ok (.ldF (fieldX op))
  else if fieldKK op = 0x33 then .ok (.ldB (fieldX op))
  else if fieldKK op = 0x55 then .ok (.ldMem (fieldX op))
  else .error (.unknownOpcode op)

/-- `Decode(op)` of 30_encoding.md R73: the top nibble first, then the group's secondary key. -/
def decode (op : Word) : Except DecodeReject Instr :=
  match (topNibble op).toNat with
  | 0x0 => decodeGroup0 op
  | 0x1 => .ok (.jp (fieldNNN op))
  | 0x2 => .ok (.call (fieldNNN op))
  | 0x3 => .ok (.seByte (fieldX op) (fieldKK op))
  | 0x4 => .ok (.sneByte (fieldX op) (fieldKK op))
  | 0x6 => .ok (.ldByte (fieldX op) (fieldKK op))
  | 0x7 => .ok (.addByte (fieldX op) (fieldKK op))
  | 0x8 => decodeGroup8 op
  | 0xA => .ok (.ldI (fieldNNN op))
  | 0xB => .ok (.jpV0 (fieldNNN op))
  | 0xC => .ok (.rnd (fieldX op) (fieldKK op))
  | 0xD => .ok (.drw (fieldX op) (fieldY op) (fieldN op))
  | 0xE => decodeGroupE op
  | 0xF => decodeGroupF op
  | _ => .error (.unknownOpcode op)

/-- The big-endian word of two bytes, the first from the lower address (20_memory.md R52). -/
def wordOfBytes (hi lo : Byte) : Word := hi ++ lo

/-- The byte of a word that lies at the lower address (20_memory.md R52). -/
def highByte (w : Word) : Byte := w.extractLsb' 8 8

/-- The byte of a word that lies at the higher address (20_memory.md R52). -/
def lowByte (w : Word) : Byte := w.extractLsb' 0 8

/-- Decoding from a stream of bytes: the instruction and the bytes after its two (30_encoding.md R70). -/
def decodeBytes : List Byte → Except DecodeReject (Instr × List Byte)
  | hi :: lo :: rest =>
    match decode (wordOfBytes hi lo) with
    | .ok i => .ok (i, rest)
    | .error r => .error r
  | _ => .error .truncated

/-- Format NNN: opcode, nnn (30_encoding.md R71). -/
def wordNNN (t : BitVec 4) (nnn : BitVec 12) : Word := t ++ nnn

/-- Formats XKK, X and FIXED: opcode, x, low byte (30_encoding.md R71). -/
def wordXKK (t : BitVec 4) (x : Reg) (kk : Byte) : Word := t ++ (BitVec.ofFin x : BitVec 4) ++ kk

/-- Formats XY and XYN: opcode, x, y, low nibble (30_encoding.md R71). -/
def wordXYN (t : BitVec 4) (x y : Reg) (n : BitVec 4) : Word :=
  t ++ (BitVec.ofFin x : BitVec 4) ++ (BitVec.ofFin y : BitVec 4) ++ n

/-- The word of an instruction (30_encoding.md R78); CLS and RET have their canonical words, bits 11:8
zero. For a SYS that is not well-formed the word is that of a CLS or a RET. -/
def encode : Instr → Word
  | .cls => wordXKK 0x0 0 0xE0
  | .ret => wordXKK 0x0 0 0xEE
  | .sys nnn => wordNNN 0x0 nnn
  | .jp nnn => wordNNN 0x1 nnn
  | .call nnn => wordNNN 0x2 nnn
  | .seByte x kk => wordXKK 0x3 x kk
  | .sneByte x kk => wordXKK 0x4 x kk
  | .ldByte x kk => wordXKK 0x6 x kk
  | .addByte x kk => wordXKK 0x7 x kk
  | .ldReg x y => wordXYN 0x8 x y 0x0
  | .andReg x y => wordXYN 0x8 x y 0x2
  | .addReg x y => wordXYN 0x8 x y 0x4
  | .subReg x y => wordXYN 0x8 x y 0x5
  | .ldI nnn => wordNNN 0xA nnn
  | .jpV0 nnn => wordNNN 0xB nnn
  | .rnd x kk => wordXKK 0xC x kk
  | .drw x y n => wordXYN 0xD x y n
  | .sknp x => wordXKK 0xE x 0xA1
  | .ldFromDT x => wordXKK 0xF x 0x07
  | .ldDT x => wordXKK 0xF x 0x15
  | .ldST x => wordXKK 0xF x 0x18
  | .addI x => wordXKK 0xF x 0x1E
  | .ldF x => wordXKK 0xF x 0x29
  | .ldB x => wordXKK 0xF x 0x33
  | .ldMem x => wordXKK 0xF x 0x55

/-- The word that the opcode table's numbering writes as `w` with `nbits` bits: bit 0 is the word's least
significant bit, and every bit above `nbits` is 0. -/
def tableWord (nbits w : Nat) : Word := BitVec.ofNat 16 (w % 2 ^ nbits)

/-- What the decoder reads from a row's word, laid out as memory holds it: high byte first
(20_memory.md R52). -/
def decodeTableWord (nbits w : Nat) : Option Instr :=
  match decodeBytes [highByte (tableWord nbits w), lowByte (tableWord nbits w)] with
  | .ok (i, _) => some i
  | .error _ => none

end Sys2Proof
end

