-- ==== Sys2Proof/Config.lean ====
section
/-! DEFINITION. The parameters of 00_scope.md rules R5 and R6, and the free values of rule R8. -/

namespace Sys2Proof

/-- `MEM_SIZE` (00_scope.md R5). -/
abbrev memSize : Nat := 4096

/-- `GLYPH_BYTES` (00_scope.md R5). -/
abbrev glyphBytes : Nat := 80

/-- `GLYPH_STRIDE` (00_scope.md R5). -/
abbrev glyphStride : Nat := 5

/-- `PROG_BASE` (00_scope.md R5). -/
abbrev progBase : Nat := 512

/-- `MAX_IMAGE` (00_scope.md R5). -/
abbrev maxImage : Nat := 3584

/-- `STACK_DEPTH` (00_scope.md R5). -/
abbrev stackDepth : Nat := 16

/-- `DISP_W` (00_scope.md R5). -/
abbrev dispWidth : Nat := 64

/-- `DISP_CELLS` (00_scope.md R5). -/
abbrev dispCells : Nat := 2048

/-- The bytes of the glyph table, parameter `GLYPH_TABLE` (20_memory.md R57). -/
abbrev GlyphTable := Vector Byte 80

/-- Parameter `UNKNOWN_OPCODE_POLICY`: what a step does after a decode failure (00_scope.md R6,
60_exceptions.md R183). -/
inductive UnknownOpcodePolicy where
  | advance
  | halt
  deriving DecidableEq, Repr

/-- The open parameters of 00_scope.md R6. A machine carries one value of this type and nothing ever
writes it, so a claim about every state holds for every setting (DESIGN CHOICE, log entry 1; safe). -/
structure Params where
  /-- `GLYPH_TABLE`. -/
  glyphTable : GlyphTable
  /-- `UNKNOWN_OPCODE_POLICY`. -/
  unknownOpcode : UnknownOpcodePolicy
  /-- `STORE_ADVANCES_I`: whether LD [I], Vx adds x+1 to I (44_index_memory.md R144). -/
  storeAdvancesI : Bool
  deriving DecidableEq, Repr

namespace Config

/-- The default of `GLYPH_TABLE` (20_memory.md R57), one glyph a line. UNVERIFIED: the spec supplies the
bytes from general knowledge (93_implementation_defined.md G3; log entry 11; unsafe). -/
def defaultGlyphs : GlyphTable := #v[
  0xF0, 0x90, 0x90, 0x90, 0xF0,
  0x20, 0x60, 0x20, 0x20, 0x70,
  0xF0, 0x10, 0xF0, 0x80, 0xF0,
  0xF0, 0x10, 0xF0, 0x10, 0xF0,
  0x90, 0x90, 0xF0, 0x10, 0x10,
  0xF0, 0x80, 0xF0, 0x10, 0xF0,
  0xF0, 0x80, 0xF0, 0x90, 0xF0,
  0xF0, 0x10, 0x20, 0x40, 0x40,
  0xF0, 0x90, 0xF0, 0x90, 0xF0,
  0xF0, 0x90, 0xF0, 0x10, 0xF0,
  0xF0, 0x90, 0xF0, 0x90, 0x90,
  0xE0, 0x90, 0xE0, 0x90, 0xE0,
  0xF0, 0x80, 0x80, 0x80, 0xF0,
  0xE0, 0x90, 0x90, 0x90, 0xE0,
  0xF0, 0x80, 0xF0, 0x80, 0xF0,
  0xF0, 0x80, 0xF0, 0x80, 0x80]

/-- The defaults of the open parameters (00_scope.md R6). -/
def defaults : Params :=
  { glyphTable := defaultGlyphs, unknownOpcode := .advance, storeAdvancesI := false }

/-- FREE VALUE: the key levels that a step sees when no driver has handed it any, one for each value of
the state's counter `fresh`. It has no body, so no proof can use a value of it (00_scope.md R8,
10_state.md R33: "a model makes it a free input of every step"; log entry 2; safe). -/
opaque freeKeys : Nat → Keys

/-- FREE VALUE: the random draw of a step that no driver has handed one, always in 0..254 by its type
(00_scope.md R8, 42_immediate.md R122; log entry 3; safe). -/
opaque freeDraw : Nat → RandomDraw

end Config

end Sys2Proof
end

