-- ==== Sys2Proof/Machine/State.lean ====
section
/-! DEFINITION. The state of dip CORE (10_state.md rules R20 to R37) and its reset value (rule R37). -/

namespace Sys2Proof.Machine

/-- The 4096 bytes of memory (20_memory.md R50) as the list of those that differ from what reset leaves
at their address, in rising order of address; `Memory.wf` in Machine/Ops.lean says so. -/
abbrev Memory := List Host.Cell

/-- The display buffer: bit k is cell k, the pixel of column `k mod 64` and row `k div 64`
(10_state.md R32). -/
abbrev Display := BitVec 2048

/-- The outcome an operation returns to the driver (60_exceptions.md R180). -/
inductive Report where
  /-- The instruction, or the load, completed. -/
  | ok
  /-- The machine is halted; nothing was done (R185). -/
  | halted
  /-- The word is no instruction (R183). -/
  | decodeFailure
  /-- CALL with sp = 16 (R184). -/
  | stackOverflow
  /-- RET with sp = 0 (R184). -/
  | stackUnderflow
  /-- SKNP with Vx > 15 (R184). -/
  | keyIndexOutOfRange
  /-- `reset_load` of more than 3584 bytes (70_reset_and_hazards.md R211). -/
  | imageTooLarge
  /-- Returned by nothing: "decoded index is always 0-15 by construction" (R180, R181). -/
  | registerIndexOutOfRange
  deriving DecidableEq, Repr

/-- The state of the machine. `V` to `eop` are the state the spec names; `report` is the outcome signal of
60_exceptions.md R200; `params` are the parameters of 00_scope.md R6, which nothing writes; `keysPort`,
`drawPort` and `fresh` are the model's own and hold the inputs of 00_scope.md R8 (log entries 1 to 5). -/
structure State where
  /-- V0..VF (R20). -/
  V : Vector Byte 16
  /-- The index register (R25). -/
  I : Word
  /-- The program counter, all 16 bits kept (R26). -/
  pc : Word
  /-- The stack pointer, 0..16 (R28). -/
  sp : Fin 17
  /-- The sixteen slots of the call stack (R28). -/
  stack : Vector Word 16
  /-- The delay timer (R30). -/
  DT : Byte
  /-- The sound timer (R30). -/
  ST : Byte
  /-- Memory (R31). -/
  mem : Memory
  /-- The display buffer (R32). -/
  disp : Display
  /-- The draw-needed flag (R34). -/
  drawNeeded : Bool
  /-- 1 after a fatal error (R35). -/
  halted : Bool
  /-- The code of the most recent error outcome, 0 for none (R35). -/
  cause : BitVec 3
  /-- The pc of the most recent error (R35). -/
  epc : Word
  /-- The word of the most recent error (R35). -/
  eop : Word
  /-- The outcome the latest step or load returned (60_exceptions.md R180, R200). -/
  report : Report
  /-- The open parameters (00_scope.md R6). -/
  params : Params
  /-- The key levels handed over for the next step, if any were (10_state.md R33). -/
  keysPort : Option Keys
  /-- The random draw handed over for the next step, if one was (42_immediate.md R122). -/
  drawPort : Option RandomDraw
  /-- Which free values the next step uses where nothing was handed over (log entries 2 to 4). -/
  fresh : Nat
  deriving DecidableEq, Repr

/-- Faults that stop the machine: NONE. Every error of the spec is an outcome that leaves a next state
(60_exceptions.md R183 to R185), and no memory access can raise anything (R181). -/
inductive Fault where
  deriving DecidableEq, Repr

/-- Refusals. -/
inductive Refusal where
  /-- An instruction without a meaning in this model. Raised by nobody: all 25 have one. Safe. -/
  | notModelled (mnemonic : String)
  deriving DecidableEq, Repr

/-- How an instruction or a step ends. -/
abbrev Result := Host.Outcome State Fault Refusal

/-- The machine right after `reset_load` of the empty image, with parameters `p` (10_state.md R37,
70_reset_and_hazards.md R210: "len = 0 is accepted"). -/
def State.resetWith (p : Params) : State :=
  { V := Vector.replicate 16 0
    I := 0
    pc := 0x0200
    sp := 0
    stack := Vector.replicate 16 0
    DT := 0
    ST := 0
    mem := []
    disp := 0
    drawNeeded := false
    halted := false
    cause := 0
    epc := 0
    eop := 0
    report := .ok
    params := p
    keysPort := none
    drawPort := none
    fresh := 0 }

/-- The machine right after reset, with the parameters at their defaults (10_state.md R37,
00_scope.md R6). A program is loaded by `resetLoad` (log entry 15). -/
def State.reset : State := State.resetWith Config.defaults

end Sys2Proof.Machine
end

