-- ==== Sys2Proof/Machine/Ops.lean ====
section
/-! DEFINITION. The named operations over memory, registers, the call stack, the pc and the status latch
(00_scope.md rule R10; 10_state.md rule R29; 20_memory.md; 60_exceptions.md rules R183 to R185). There is
no return from an error: 60_exceptions.md R187. -/

namespace Sys2Proof.Machine

/-! ### Memory -/

/-- What an address holds that nothing has written since reset: the glyph table, then zeros
(10_state.md R37, 20_memory.md R51). -/
def Memory.unlisted (g : GlyphTable) (a : Nat) : Byte :=
  if h : a < 80 then g[a] else 0

/-- The listed byte at an address, if there is one. -/
def Memory.lookup : Memory → Nat → Option Byte
  | [], _ => none
  | (b, v) :: m, a => if b = a then some v else Memory.lookup m a

/-- The byte at an address below 4096. -/
def Memory.read (g : GlyphTable) (m : Memory) (a : Nat) : Byte :=
  (m.lookup a).getD (Memory.unlisted g a)

/-- `m` with the entry (a, v), at its place in the order. -/
def Memory.insert : Memory → Nat → Byte → Memory
  | [], a, v => [(a, v)]
  | (b, w) :: m, a, v =>
    if a < b then (a, v) :: (b, w) :: m
    else if a = b then (a, v) :: m
    else (b, w) :: Memory.insert m a v

/-- `m` without an entry for `a`. -/
def Memory.erase (m : Memory) (a : Nat) : Memory := m.filter fun c => c.1 != a

/-- `m` with byte `v` at the address `a`, in canonical form again. -/
def Memory.write (g : GlyphTable) (m : Memory) (a : Nat) (v : Byte) : Memory :=
  if v = Memory.unlisted g a then m.erase a else m.insert a v

/-- The canonical form: addresses strictly rising and below 4096, no entry that says what an unlisted
address holds anyway. -/
def Memory.wf (g : GlyphTable) (m : Memory) : Bool :=
  decide (m.Pairwise fun c d => c.1 < d.1) &&
    m.all fun c => decide (c.1 < 4096) && c.2 != Memory.unlisted g c.1

/-- `MemRead(addr, 1)`: every address is reduced modulo 4096 (00_scope.md R10, 20_memory.md R53). -/
def State.memRead (s : State) (addr : Nat) : Byte :=
  Memory.read s.params.glyphTable s.mem (addr % 4096)

/-- `MemWrite(addr, 1, v)` (00_scope.md R10, 20_memory.md R53). -/
def State.memWrite (s : State) (addr : Nat) (v : Byte) : State :=
  { s with mem := Memory.write s.params.glyphTable s.mem (addr % 4096) v }

/-- Bytes written one by one at rising addresses from `addr`, each reduced modulo 4096
(20_memory.md R53, R54). -/
def Memory.store (g : GlyphTable) (m : Memory) (addr : Nat) : List Byte → Memory
  | [] => m
  | b :: bs => Memory.store g (Memory.write g m (addr % 4096) b) (addr + 1) bs

/-- A store of bytes at rising addresses; no other effect (20_memory.md R54, R58). -/
def State.storeBytes (s : State) (addr : Nat) (bs : List Byte) : State :=
  { s with mem := Memory.store s.params.glyphTable s.mem addr bs }

/-- `MemRead(pc, 2)`: the word at pc, big-endian, its two addresses reduced separately
(20_memory.md R52). -/
def State.fetch (s : State) : Word :=
  wordOfBytes (s.memRead s.pc.toNat) (s.memRead (s.pc.toNat + 1))

/-! ### Registers and the pc -/

/-- `V[i]` (00_scope.md R10). -/
def State.readReg (s : State) (i : Reg) : Byte := s.V[i]

/-- `V[i] <- v` (00_scope.md R10). -/
def State.writeReg (s : State) (i : Reg) (v : Byte) : State := { s with V := s.V.set i v }

/-- `I <- v` (10_state.md R25). -/
def State.setI (s : State) (v : Word) : State := { s with I := v }

/-- `pc <- target` (10_state.md R26). -/
def State.setPc (s : State) (target : Word) : State := { s with pc := target }

/-- `(pc + 2) mod 65536`: the instruction after this one, also the return address of a CALL
(10_state.md R27). -/
def State.nextPc (s : State) : Word := s.pc + 2

/-- `(pc + 4) mod 65536`: past the next instruction (10_state.md R27). -/
def State.skipPc (s : State) : Word := s.pc + 4

/-- `DT <- v` (10_state.md R30). -/
def State.setDT (s : State) (v : Byte) : State := { s with DT := v }

/-- `ST <- v` (10_state.md R30). -/
def State.setST (s : State) (v : Byte) : State := { s with ST := v }

/-- The whole display buffer written (10_state.md R32). -/
def State.setDisplay (s : State) (d : Display) : State := { s with disp := d }

/-- `draw_needed <- b` (10_state.md R34). -/
def State.setDrawNeeded (s : State) (b : Bool) : State := { s with drawNeeded := b }

/-! ### The call stack -/

/-- `Push(v)`; no state where the stack is full (10_state.md R29). -/
def State.push (s : State) (v : Word) : Option State :=
  if h : s.sp.val < 16 then
    some { s with stack := s.stack.set s.sp.val v, sp := ⟨s.sp.val + 1, by omega⟩ }
  else none

/-- `Pop()`: the popped value and the state after; nothing where the stack is empty. The slot keeps its
value (10_state.md R29). -/
def State.pop (s : State) : Option (Word × State) :=
  if h : 0 < s.sp.val then
    some (s.stack[s.sp.val - 1], { s with sp := ⟨s.sp.val - 1, by omega⟩ })
  else none

/-! ### The inputs of a step -/

/-- `keys[0..15]` as this step sees them: what was handed over, else a free value (00_scope.md R8,
10_state.md R33). -/
def State.keys (s : State) : Keys := s.keysPort.getD (Config.freeKeys s.fresh)

/-- The random draw `r` of this step: what was handed over, else a free value (00_scope.md R8). -/
def State.draw (s : State) : RandomDraw := s.drawPort.getD (Config.freeDraw s.fresh)

/-- The inputs of one step are used up with it: the next step sees others (70_reset_and_hazards.md R222;
log entries 2 and 3). -/
def State.consumeInputs (s : State) : State :=
  { s with keysPort := none, drawPort := none, fresh := s.fresh + 1 }

/-! ### Outcomes -/

/-- `return Ok` (30_encoding.md R75). -/
def complete (s : State) : Result := .next { s with report := .ok }

/-- The code of an outcome in the `cause` register (60_exceptions.md R181); an outcome that is no error
of the table has 0. -/
def causeCode : Report → BitVec 3
  | .ok => 0
  | .halted => 0
  | .decodeFailure => 1
  | .stackOverflow => 2
  | .stackUnderflow => 3
  | .keyIndexOutOfRange => 4
  | .imageTooLarge => 5
  | .registerIndexOutOfRange => 6

/-- What every error outcome records: its code, the pc and the word of the instruction, and what the
driver is told (60_exceptions.md R183, R184). The word is read again at pc, where the step fetched it:
nothing has been written yet when an error is raised (R182; DEDUCED, log entry 8; safe). -/
def State.recordError (s : State) (r : Report) : State :=
  { s with cause := causeCode r, epc := s.pc, eop := s.fetch, report := r }

/-- The machine stops executing; only `resetLoad` starts it again (60_exceptions.md R185). -/
def State.halt (s : State) : State := { s with halted := true }

/-- `raise E(pc0, op)` for a fatal error: the ONE way an instruction takes an error outcome. It leaves a
next state, with the status latch written and nothing else (60_exceptions.md R184). -/
def raiseFatal (r : Report) (s : State) : Result := .next (s.recordError r).halt

/-- `raise DecodeFailure(pc0, op)`, by the parameter `UNKNOWN_OPCODE_POLICY` (60_exceptions.md R183). -/
def raiseDecodeFailure (s : State) : State :=
  match s.params.unknownOpcode with
  | .advance => (s.recordError .decodeFailure).setPc s.nextPc
  | .halt => (s.recordError .decodeFailure).halt

/-- A step of a halted machine: "fetches nothing, changes nothing and returns `Halted`"
(60_exceptions.md R185; log entry 6). -/
def reportHalted (s : State) : State := { s with report := .halted }

/-- `s` with the word `w` stored where the next step fetches, high byte first (20_memory.md R52), and
not halted, since a halted machine fetches nothing (log entry 16). -/
def State.placeWord (s : State) (w : Word) : State :=
  { s.storeBytes s.pc.toNat [highByte w, lowByte w] with halted := false }

end Sys2Proof.Machine
end

