-- ==== Sys2Proof/Machine/Operands.lean ====
section
/-! DEFINITION. The operand forms of the instructions: addresses, extended immediates, decimal digits, the
register block of LD [I], and the geometry of a sprite (30_encoding.md rule R72; 43_register_alu.md rule
R134; 44_index_memory.md rule R145; 45_draw.md rules R151, R152). -/

namespace Sys2Proof.Machine

/-- `zext_16(nnn)` (30_encoding.md R72). -/
def zext16 (nnn : BitVec 12) : Word := nnn.setWidth 16

/-- The base of a data access: the full value of I. The k-th byte lies at `base + k`, which the access
itself reduces modulo 4096 (20_memory.md R53). -/
def State.dataBase (s : State) : Nat := s.I.toNat

/-- `V0 + nnn`, exact, at most 4350 (40_control_system.md R105). -/
def State.jumpV0Target (s : State) (nnn : BitVec 12) : Word :=
  BitVec.ofNat 16 ((s.readReg regV0).toNat + nnn.toNat)

/-- `(I + Vx) mod 65536` (44_index_memory.md R141). -/
def State.indexPlus (s : State) (x : Reg) : Word :=
  BitVec.ofNat 16 (s.I.toNat + (s.readReg x).toNat)

/-- `Vx * 5`, exact, all 8 bits of Vx used (44_index_memory.md R142). -/
def glyphAddress (a : Byte) : Word := BitVec.ofNat 16 (a.toNat * 5)

/-- Hundreds, tens and ones of a byte (44_index_memory.md R143). -/
def bcdDigits (a : Byte) : List Byte :=
  [BitVec.ofNat 8 (a.toNat / 100), BitVec.ofNat 8 (a.toNat / 10 % 10), BitVec.ofNat 8 (a.toNat % 10)]

/-- V0..Vx, x + 1 bytes (44_index_memory.md R144). -/
def State.regBlock (s : State) (x : Reg) : List Byte := s.V.toList.take (x.val + 1)

/-- `r & kk` (42_immediate.md R122). -/
def State.maskedDraw (s : State) (kk : Byte) : Byte := BitVec.ofNat 8 s.draw.val &&& kk

/-- The display cell of sprite row `row`, column `col`: the coordinates are combined into the linear
index first, and only that is reduced (45_draw.md R151). -/
def cellIndex (X Y : Byte) (row col : Nat) : Nat :=
  (X.toNat + col + 64 * (Y.toNat + row)) % 2048

/-- The pixel of a sprite row: bit 7 is the leftmost column (45_draw.md R152). UNVERIFIED: the spec takes
the bit order from general knowledge (93_implementation_defined.md G4; log entry 12; unsafe). -/
def spriteBit (bits : Byte) (col : Nat) : Bool := bits.getLsbD (7 - col)

/-- Sprite row `row`: the byte at `ea(row)` (45_draw.md R152). -/
def State.spriteRow (s : State) (row : Nat) : Byte := s.memRead (s.dataBase + row)

end Sys2Proof.Machine
end

