-- ==== Sys2Proof/Machine/Control.lean ====
section
/-! DEFINITION. The meanings of the control and system instructions (40_control_system.md). -/

namespace Sys2Proof.Machine

/-- CLS: every display cell zeroed; VF and draw_needed are not written (40_control_system.md R101). -/
def execCls (s : State) : Result := complete ((s.setDisplay 0).setPc s.nextPc)

/-- RET: the popped slot into pc, or StackUnderflow (40_control_system.md R102). -/
def execRet (s : State) : Result :=
  match s.pop with
  | some (target, t) => complete (t.setPc target)
  | none => raiseFatal .stackUnderflow s

/-- SYS nnn: a plain jump on this hardware (40_control_system.md R100). -/
def execSys (nnn : BitVec 12) (s : State) : Result := complete (s.setPc (zext16 nnn))

/-- JP nnn (40_control_system.md R103). -/
def execJp (nnn : BitVec 12) (s : State) : Result := complete (s.setPc (zext16 nnn))

/-- CALL nnn: the return address pushed, then the jump, or StackOverflow (40_control_system.md R104). -/
def execCall (nnn : BitVec 12) (s : State) : Result :=
  match s.push s.nextPc with
  | some t => complete (t.setPc (zext16 nnn))
  | none => raiseFatal .stackOverflow s

/-- JP V0, nnn: the sum is not reduced (40_control_system.md R105). -/
def execJpV0 (nnn : BitVec 12) (s : State) : Result := complete (s.setPc (s.jumpV0Target nnn))

end Sys2Proof.Machine
end

