-- ==== Sys2Proof/Machine/Flags.lean ====
section
/-! DEFINITION. The 8-bit arithmetic and the three flag computations of the machine (10_state.md rule R22;
43_register_alu.md rules R132 to R134). -/

namespace Sys2Proof.Machine

/-- A flag as VF holds it: 1 or 0 (10_state.md R22). -/
def flagByte (b : Bool) : Byte := if b then 1 else 0

/-- The exact sum, narrowed to 8 bits (43_register_alu.md R134). -/
def addByteMod (a b : Byte) : Byte := BitVec.ofNat 8 (a.toNat + b.toNat)

/-- The difference modulo 256 (43_register_alu.md R134). -/
def subByteMod (a b : Byte) : Byte := a - b

/-- The carry of ADD Vx, Vy: 1 iff the exact sum exceeds 255 (43_register_alu.md R132). -/
def carryFlag (a b : Byte) : Byte := flagByte (decide (255 < a.toNat + b.toNat))

/-- The flag of SUB Vx, Vy: 1 iff `a > b`, strictly (43_register_alu.md R133). -/
def notBorrowFlag (a b : Byte) : Byte := flagByte (decide (b.toNat < a.toNat))

/-- The two writes of ADD and SUB in their order: VF, then Vx, so that with x = F the result is what VF
holds afterwards (10_state.md R24). -/
def State.writeFlagThenReg (s : State) (x : Reg) (flag result : Byte) : State :=
  (s.writeReg regVF flag).writeReg x result

end Sys2Proof.Machine
end

