-- ==== Sys2Proof/Machine/Draw.lean ====
section
/-! DEFINITION. DRW, the blit of the display buffer, and what the renderer may do (45_draw.md;
60_exceptions.md rules R201, R203). -/

namespace Sys2Proof.Machine

/-- `disp[k] <- disp[k] ^ 1` (45_draw.md R150). -/
def toggleCell (d : Display) (k : Nat) : Display := d ^^^ BitVec.twoPow 2048 k

/-- One pixel of a sprite: a 1 bit toggles its cell and notes whether a set cell is cleared; a 0 bit does
nothing (45_draw.md R150, R152). -/
def blitPixel (X Y bits : Byte) (row : Nat) (acc : Display × Bool) (col : Nat) : Display × Bool :=
  if spriteBit bits col then
    (toggleCell acc.1 (cellIndex X Y row col), acc.2 || acc.1.getLsbD (cellIndex X Y row col))
  else acc

/-- One row of a sprite, columns 0 to 7 (45_draw.md R150). -/
def blitRow (X Y bits : Byte) (row : Nat) (acc : Display × Bool) : Display × Bool :=
  (List.range 8).foldl (blitPixel X Y bits row) acc

/-- `blit(x, y, sprite_rows)`: the display after the sprite's `n` rows, and the collision flag
(45_draw.md R150). -/
def blit (X Y : Byte) (rows : Nat → Byte) (n : Nat) (d : Display) : Display × Bool :=
  (List.range n).foldl (fun acc row => blitRow X Y (rows row) row acc) (d, false)

/-- The blit of DRW Vx, Vy, n on a state: every operand is sampled before any write
(45_draw.md R150, R154). -/
def State.blitSprite (s : State) (x y : Reg) (n : BitVec 4) : Display × Bool :=
  blit (s.readReg x) (s.readReg y) s.spriteRow n.toNat s.disp

/-- DRW Vx, Vy, n (45_draw.md R150). -/
def execDrw (x y : Reg) (n : BitVec 4) (s : State) : Result :=
  complete ((((s.setDisplay (s.blitSprite x y n).1).writeReg regVF (flagByte (s.blitSprite x y n).2)).setDrawNeeded
    true).setPc s.nextPc)

/-- `draw_ack()`: the renderer has consumed the display; independent of `halted` (60_exceptions.md R203). -/
def State.drawAck (s : State) : State := s.setDrawNeeded false

/-- The pixel at a column and a row, as the renderer's `snapshot()` shows it (60_exceptions.md R201). -/
def State.pixel (s : State) (col row : Nat) : Bool := s.disp.getLsbD (col + 64 * row)

/-- `snapshot() -> grid`: the 2048 cells in order; reading changes nothing (60_exceptions.md R201). -/
def State.snapshot (s : State) : List Bool := (List.range 2048).map s.disp.getLsbD

end Sys2Proof.Machine
end

