-- ==== Sys2Proof/Machine/Immediate.lean ====
section
/-! DEFINITION. The meanings of the register-immediate instructions (42_immediate.md). -/

namespace Sys2Proof.Machine

/-- `V[x] <- v ; pc <- pc + 2`: the shape of every instruction that writes one register. -/
def loadReg (x : Reg) (v : Byte) (s : State) : Result := complete ((s.writeReg x v).setPc s.nextPc)

/-- LD Vx, kk (42_immediate.md R120). -/
def execLdByte (x : Reg) (kk : Byte) (s : State) : Result := loadReg x kk s

/-- ADD Vx, kk: wrapping, no flag (42_immediate.md R121). -/
def execAddByte (x : Reg) (kk : Byte) (s : State) : Result := loadReg x (addByteMod (s.readReg x) kk) s

/-- RND Vx, kk: the step's random draw, masked (42_immediate.md R122). -/
def execRnd (x : Reg) (kk : Byte) (s : State) : Result := loadReg x (s.maskedDraw kk) s

end Sys2Proof.Machine
end

