-- ==== Sys2Proof/Machine/IndexMemory.lean ====
section
/-! DEFINITION. The meanings of the index-register and store instructions (44_index_memory.md). -/

namespace Sys2Proof.Machine

/-- `I <- v ; pc <- pc + 2`. -/
def loadIndex (v : Word) (s : State) : Result := complete ((s.setI v).setPc s.nextPc)

/-- LD I, nnn (44_index_memory.md R140). -/
def execLdI (nnn : BitVec 12) (s : State) : Result := loadIndex (zext16 nnn) s

/-- ADD I, Vx: no flag (44_index_memory.md R141). -/
def execAddI (x : Reg) (s : State) : Result := loadIndex (s.indexPlus x) s

/-- LD F, Vx: memory is not accessed (44_index_memory.md R142). -/
def execLdF (x : Reg) (s : State) : Result := loadIndex (glyphAddress (s.readReg x)) s

/-- LD B, Vx: I is not changed (44_index_memory.md R143). -/
def execLdB (x : Reg) (s : State) : Result :=
  complete ((s.storeBytes s.dataBase (bcdDigits (s.readReg x))).setPc s.nextPc)

/-- I after LD [I], Vx, by the parameter `STORE_ADVANCES_I` (44_index_memory.md R144). -/
def State.indexAfterStore (s : State) (x : Reg) : Word :=
  if s.params.storeAdvancesI then BitVec.ofNat 16 (s.I.toNat + x.val + 1) else s.I

/-- LD [I], Vx: V0..Vx stored in rising order (44_index_memory.md R144). -/
def execLdMem (x : Reg) (s : State) : Result :=
  complete (((s.storeBytes s.dataBase (s.regBlock x)).setI (s.indexAfterStore x)).setPc s.nextPc)

end Sys2Proof.Machine
end

