-- ==== Sys2Proof/Machine/RegisterAlu.lean ====
section
/-! DEFINITION. The meanings of the register-register instructions (43_register_alu.md). -/

namespace Sys2Proof.Machine

/-- `V[15] <- flag ; V[x] <- result ; pc <- pc + 2` (43_register_alu.md R132, R133). -/
def loadFlagAndReg (x : Reg) (flag result : Byte) (s : State) : Result :=
  complete ((s.writeFlagThenReg x flag result).setPc s.nextPc)

/-- LD Vx, Vy (43_register_alu.md R130). -/
def execLdReg (x y : Reg) (s : State) : Result := loadReg x (s.readReg y) s

/-- AND Vx, Vy (43_register_alu.md R131). -/
def execAndReg (x y : Reg) (s : State) : Result := loadReg x (s.readReg x &&& s.readReg y) s

/-- ADD Vx, Vy (43_register_alu.md R132). -/
def execAddReg (x y : Reg) (s : State) : Result :=
  loadFlagAndReg x (carryFlag (s.readReg x) (s.readReg y)) (addByteMod (s.readReg x) (s.readReg y)) s

/-- SUB Vx, Vy: the flag is the strict comparison (43_register_alu.md R133). -/
def execSubReg (x y : Reg) (s : State) : Result :=
  loadFlagAndReg x (notBorrowFlag (s.readReg x) (s.readReg y)) (subByteMod (s.readReg x) (s.readReg y)) s

end Sys2Proof.Machine
end

