-- ==== Sys2Proof/Machine/Skip.lean ====
section
/-! DEFINITION. The meanings of the skip instructions (41_skip.md). -/

namespace Sys2Proof.Machine

/-- pc + 4 where the condition holds, else pc + 2; the skipped word is neither fetched nor decoded
(10_state.md R27, 41_skip.md R110). -/
def skipIf (cond : Bool) (s : State) : Result :=
  complete (s.setPc (if cond then s.skipPc else s.nextPc))

/-- SE Vx, kk (41_skip.md R110). -/
def execSeByte (x : Reg) (kk : Byte) (s : State) : Result := skipIf (s.readReg x == kk) s

/-- SNE Vx, kk (41_skip.md R111). -/
def execSneByte (x : Reg) (kk : Byte) (s : State) : Result := skipIf (s.readReg x != kk) s

/-- SKNP Vx: skip if the key is not held; an index above 15 is a fatal error (41_skip.md R112). -/
def execSknp (x : Reg) (s : State) : Result :=
  if h : (s.readReg x).toNat < 16 then skipIf (!(s.keys[(s.readReg x).toNat])) s
  else raiseFatal .keyIndexOutOfRange s

end Sys2Proof.Machine
end

