-- ==== Sys2Proof/Machine/Timer.lean ====
section
/-! DEFINITION. The timer instructions and the `tick()` operation (46_timer.md). -/

namespace Sys2Proof.Machine

/-- LD Vx, DT (46_timer.md R160). -/
def execLdFromDT (x : Reg) (s : State) : Result := loadReg x s.DT s

/-- LD DT, Vx (46_timer.md R161). -/
def execLdDT (x : Reg) (s : State) : Result := complete ((s.setDT (s.readReg x)).setPc s.nextPc)

/-- LD ST, Vx (46_timer.md R162). -/
def execLdST (x : Reg) (s : State) : Result := complete ((s.setST (s.readReg x)).setPc s.nextPc)

/-- One count of a timer: "decremented once per timer tick while > 0; never negative" (10_state.md R30). -/
def countDown (t : Byte) : Byte := BitVec.ofNat 8 (t.toNat - 1)

/-- `tick()`: each timer on its own, whether or not the machine is halted (46_timer.md R163). -/
def State.tick (s : State) : State := (s.setDT (countDown s.DT)).setST (countDown s.ST)

/-- `sound_on = (ST > 0)` (60_exceptions.md R202). -/
def State.soundOn (s : State) : Bool := decide (0 < s.ST.toNat)

end Sys2Proof.Machine
end

