-- ==== Sys2Proof/Machine/Step.lean ====
section
/-! DEFINITION. The step operation (30_encoding.md rule R75). -/

namespace Sys2Proof.Machine

/-- What a step adds around an instruction: the step's inputs are used up. -/
def afterExec : Result → Result
  | .next t => .next t.consumeInputs
  | .fault f => .fault f
  | .refused r => .refused r

/-- `step(keys, r)` (30_encoding.md R75): the halted test, the fetch, the decoder, the instruction. The
inputs `keys` and `r` are those of the state (`State.keys`, `State.draw`), used up by the step. -/
def step (s : State) : Host.Outcome State Fault Refusal :=
  if s.halted then .next (reportHalted s).consumeInputs
  else
    match decode s.fetch with
    | .ok i => afterExec (exec i s)
    | .error _ => .next (raiseDecodeFailure s).consumeInputs

/-- `s` with the instruction of an opcode-table word stored where the next step fetches. -/
def State.withFetchWord (s : State) (nbits w : Nat) : State := s.placeWord (tableWord nbits w)

end Sys2Proof.Machine
end

