-- ==== Sys2Proof/Machine/Reset.lean ====
section
/-! DEFINITION. Reset and program load (70_reset_and_hazards.md rules R210, R211). -/

namespace Sys2Proof.Machine

/-- The state of a fresh machine of the same build that sees the same inputs as `s`: "The key inputs are
not affected" (70_reset_and_hazards.md R210). -/
def State.cleared (s : State) : State :=
  { State.resetWith s.params with keysPort := s.keysPort, drawPort := s.drawPort, fresh := s.fresh }

/-- `reset_load(image)`: everything initialised and the image copied from 512 on, or `ImageTooLarge` and
nothing changed but the outcome reported (70_reset_and_hazards.md R210, R211). -/
def State.resetLoad (s : State) (image : List Byte) : State :=
  if image.length ≤ 3584 then s.cleared.storeBytes 512 image
  else { s with report := .imageTooLarge }

end Sys2Proof.Machine
end

