-- ==== Sys2Proof/Machine/Driver.lean ====
section
/-! DEFINITION. The operations the outside world may invoke, one transition each (00_scope.md rule R7;
70_reset_and_hazards.md rule R225). Any order of events is a run of the machine (46_timer.md rule R164). -/

namespace Sys2Proof.Machine

/-- An operation of 00_scope.md R7 with what the host hands over. -/
inductive Event where
  /-- `step(keys, r)`, with the key levels as they are now and a draw in 0..254. -/
  | step (keys : Keys) (r : RandomDraw)
  /-- `tick()`. -/
  | tick
  /-- `draw_ack()`. -/
  | drawAck
  /-- `reset_load(image)`. -/
  | resetLoad (image : List Byte)
  /-- The input collaborator changes the levels the next step sees. -/
  | keyChange (keys : Keys)
  deriving DecidableEq, Repr

/-- The inputs of a step handed over (00_scope.md R8). -/
def State.withInputs (s : State) (keys : Keys) (r : RandomDraw) : State :=
  { s with keysPort := some keys, drawPort := some r }

/-- A key change: only what the next step sees on `keys` (00_scope.md R7, 10_state.md R33). -/
def State.keyChange (s : State) (keys : Keys) : State := { s with keysPort := some keys }

/-- The machine after an operation. -/
def drive (e : Event) (s : State) : Result :=
  match e with
  | .step keys r => step (s.withInputs keys r)
  | .tick => .next s.tick
  | .drawAck => .next s.drawAck
  | .resetLoad image => .next (s.resetLoad image)
  | .keyChange keys => .next (s.keyChange keys)

/-- The machine after a sequence of operations: any interleaving the host chooses (46_timer.md R164). -/
def driveAll : List Event → State → Result
  | [], s => .next s
  | e :: es, s =>
    match drive e s with
    | .next t => driveAll es t
    | .fault f => .fault f
    | .refused r => .refused r

end Sys2Proof.Machine
end

