-- ==== Sys2Proof/Safety.lean ====
section
/-! DEFINITION. The terms in which claims are stated: what an operation leaves unchanged, the tables of the
spec that range over all instructions, what a stopped run is (70_reset_and_hazards.md rule R223), and the
invariant of the machine. -/

namespace Sys2Proof.Machine

/-! ### Frames -/

/-- Every general register but those named keeps its value. -/
def KeepsRegs (s t : State) (written : List Reg) : Prop :=
  ∀ r : Reg, r ∉ written → t.readReg r = s.readReg r

/-- Every byte of memory but those at the named addresses reads as before. -/
def KeepsMem (s t : State) (stored : List Nat) : Prop :=
  ∀ a : Nat, a % 4096 ∉ stored → t.memRead a = s.memRead a

/-- The addresses of a store of `n` bytes: `ea(0) .. ea(n-1)` (20_memory.md R53, R54). -/
def storedAddresses (s : State) (n : Nat) : List Nat :=
  (List.range n).map fun k => (s.dataBase + k) % 4096

/-- The state that a fatal error leaves: "cause <- c ; epc <- pc0 ; eop <- op ; halted <- 1" and nothing
else, the outcome reported (60_exceptions.md R184). -/
def fatalState (s : State) (code : BitVec 3) (r : Report) : State :=
  { s with halted := true, cause := code, epc := s.pc, eop := s.fetch, report := r }

/-- `s` once a step has used up its inputs (the model's own part of a step, log entries 2 to 4). -/
def inputsUsed (s : State) : State :=
  { s with keysPort := none, drawPort := none, fresh := s.fresh + 1 }

/-! ### Tables over all instructions -/

/-- The `match` and `mask` columns of the opcode map (30_encoding.md R78). -/
def opcodeRow : Instr → Word × Word
  | .sys _ => (0x0000, 0xF000)
  | .cls => (0x00E0, 0xF0FF)
  | .ret => (0x00EE, 0xF0FF)
  | .jp _ => (0x1000, 0xF000)
  | .call _ => (0x2000, 0xF000)
  | .seByte _ _ => (0x3000, 0xF000)
  | .sneByte _ _ => (0x4000, 0xF000)
  | .ldByte _ _ => (0x6000, 0xF000)
  | .addByte _ _ => (0x7000, 0xF000)
  | .ldReg _ _ => (0x8000, 0xF00F)
  | .andReg _ _ => (0x8002, 0xF00F)
  | .addReg _ _ => (0x8004, 0xF00F)
  | .subReg _ _ => (0x8005, 0xF00F)
  | .ldI _ => (0xA000, 0xF000)
  | .jpV0 _ => (0xB000, 0xF000)
  | .rnd _ _ => (0xC000, 0xF000)
  | .drw _ _ _ => (0xD000, 0xF000)
  | .sknp _ => (0xE0A1, 0xF0FF)
  | .ldFromDT _ => (0xF007, 0xF0FF)
  | .ldDT _ => (0xF015, 0xF0FF)
  | .ldST _ => (0xF018, 0xF0FF)
  | .addI _ => (0xF01E, 0xF0FF)
  | .ldF _ => (0xF029, 0xF0FF)
  | .ldB _ => (0xF033, 0xF0FF)
  | .ldMem _ => (0xF055, 0xF0FF)

/-- "A word w selects it when `w & mask = match`", SYS yielding to CLS and RET (30_encoding.md R78). -/
def SelectsRow (w : Word) (i : Instr) : Prop :=
  w &&& (opcodeRow i).2 = (opcodeRow i).1 ∧
    (opcodeRow i = (0x0000, 0xF000) → w.toNat % 256 ≠ 0xE0 ∧ w.toNat % 256 ≠ 0xEE)

/-- The illegal words by the classes of 30_encoding.md R79, told by the nibbles of the word as a number. -/
def IllegalWord (w : Word) : Prop :=
  w.toNat / 4096 = 0x5 ∨ w.toNat / 4096 = 0x9 ∨
  (w.toNat / 4096 = 0x8 ∧ w.toNat % 16 ∉ [0x0, 0x2, 0x4, 0x5]) ∨
  (w.toNat / 4096 = 0xE ∧ w.toNat % 256 ≠ 0xA1) ∨
  (w.toNat / 4096 = 0xF ∧ w.toNat % 256 ∉ [0x07, 0x15, 0x18, 0x1E, 0x29, 0x33, 0x55])

/-- The general registers an instruction writes, VF as a side effect included: the W columns of
10_state.md R23. -/
def regsWritten : Instr → List Reg
  | .ldByte x _ => [x]
  | .addByte x _ => [x]
  | .ldReg x _ => [x]
  | .andReg x _ => [x]
  | .addReg x _ => [x, regVF]
  | .subReg x _ => [x, regVF]
  | .rnd x _ => [x]
  | .drw _ _ _ => [regVF]
  | .ldFromDT x => [x]
  | .sys _ => []
  | .cls => []
  | .ret => []
  | .jp _ => []
  | .call _ => []
  | .seByte _ _ => []
  | .sneByte _ _ => []
  | .ldI _ => []
  | .jpV0 _ => []
  | .sknp _ => []
  | .ldDT _ => []
  | .ldST _ => []
  | .addI _ => []
  | .ldF _ => []
  | .ldB _ => []
  | .ldMem _ => []

/-- pc after an instruction that completes, by the table of 10_state.md R27; the conditions of the skips
and the targets are told from the state at the start. -/
def pcAfter (s : State) : Instr → Nat
  | .sys nnn => nnn.toNat
  | .jp nnn => nnn.toNat
  | .call nnn => nnn.toNat
  | .jpV0 nnn => (s.readReg 0).toNat + nnn.toNat
  | .ret => (s.stack[s.sp.val - 1]).toNat
  | .seByte x kk => (s.pc.toNat + if (s.readReg x).toNat = kk.toNat then 4 else 2) % 65536
  | .sneByte x kk => (s.pc.toNat + if (s.readReg x).toNat = kk.toNat then 2 else 4) % 65536
  | .sknp x => (s.pc.toNat + if s.keys[(s.readReg x).toNat]? = some false then 4 else 2) % 65536
  | .cls => (s.pc.toNat + 2) % 65536
  | .ldByte _ _ => (s.pc.toNat + 2) % 65536
  | .addByte _ _ => (s.pc.toNat + 2) % 65536
  | .ldReg _ _ => (s.pc.toNat + 2) % 65536
  | .andReg _ _ => (s.pc.toNat + 2) % 65536
  | .addReg _ _ => (s.pc.toNat + 2) % 65536
  | .subReg _ _ => (s.pc.toNat + 2) % 65536
  | .ldI _ => (s.pc.toNat + 2) % 65536
  | .rnd _ _ => (s.pc.toNat + 2) % 65536
  | .drw _ _ _ => (s.pc.toNat + 2) % 65536
  | .ldFromDT _ => (s.pc.toNat + 2) % 65536
  | .ldDT _ => (s.pc.toNat + 2) % 65536
  | .ldST _ => (s.pc.toNat + 2) % 65536
  | .addI _ => (s.pc.toNat + 2) % 65536
  | .ldF _ => (s.pc.toNat + 2) % 65536
  | .ldB _ => (s.pc.toNat + 2) % 65536
  | .ldMem _ => (s.pc.toNat + 2) % 65536

/-! ### The sprite as the spec describes it, without the order of its pixels -/

/-- Some pixel of the sprite lies on cell `k`: a 1 bit of row `row`, column `col`, with
`k = (Vx + col + 64 * (Vy + row)) mod 2048` (45_draw.md R150, R151). -/
def SpriteCovers (s : State) (x y : Reg) (n : BitVec 4) (k : Nat) : Prop :=
  ∃ row < n.toNat, ∃ col < 8, (s.memRead (s.I.toNat + row)).getLsbD (7 - col) = true ∧
    k = ((s.readReg x).toNat + col + 64 * ((s.readReg y).toNat + row)) % 2048

/-! ### What a program can and cannot see -/

/-- The two machines differ at most in the outputs that no instruction reads: ST, draw_needed, cause, epc,
eop and the outcome reported (10_state.md R30, R34, R35). -/
def SameButOutputs (s t : State) : Prop :=
  t = { s with ST := t.ST, drawNeeded := t.drawNeeded, cause := t.cause, epc := t.epc, eop := t.eop,
               report := t.report }

/-- An outcome with the next state changed. -/
def mapNext (f : State → State) : Result → Result
  | .next t => .next (f t)
  | .fault e => .fault e
  | .refused r => .refused r

/-! ### Stopped runs (70_reset_and_hazards.md R223) -/

/-- "The word at pc is `JP nnn` with nnn = pc, `halted` = 0 and no step of the run returned an error
outcome": the last holds just when `cause`, which is sticky, is still 0 (10_state.md R35). -/
def StoppedNormally (s : State) : Prop :=
  (∃ nnn : BitVec 12, decode s.fetch = .ok (.jp nnn) ∧ nnn.toNat = s.pc.toNat) ∧
    s.halted = false ∧ s.cause = 0

/-- "A run has stopped abnormally when `halted` = 1". -/
def StoppedAbnormally (s : State) : Prop := s.halted = true

/-- The machine parts that a halted machine keeps until `reset_load`: all but the timers, draw_needed, the
outcome and the inputs (60_exceptions.md R185). -/
def FrozenBy (s t : State) : Prop :=
  t = { s with DT := t.DT, ST := t.ST, drawNeeded := t.drawNeeded, report := t.report,
               keysPort := t.keysPort, drawPort := t.drawPort, fresh := t.fresh }

/-! ### The invariant -/

/-- What the status latch tells of the machine: an error of each kind leaves the machine as
60_exceptions.md R181, R183 and R184 say, and it stays so while the latch is sticky (10_state.md R35). -/
structure LatchOk (s : State) : Prop where
  /-- No error yet: the machine runs and the latch is as reset left it. -/
  none : s.cause = 0 → s.halted = false ∧ s.epc = 0 ∧ s.eop = 0
  /-- A decode failure: the word is illegal, and the machine is halted just under policy `halt`. -/
  decodeFailure : s.cause = 1 →
    decode s.eop = .error (.unknownOpcode s.eop) ∧
      (s.halted = true ↔ s.params.unknownOpcode = .halt)
  /-- A stack overflow: halted at a CALL with the stack full. -/
  stackOverflow : s.cause = 2 →
    s.halted = true ∧ (∃ nnn, decode s.eop = .ok (.call nnn)) ∧ s.sp.val = 16
  /-- A stack underflow: halted at a RET with the stack empty. -/
  stackUnderflow : s.cause = 3 → s.halted = true ∧ decode s.eop = .ok .ret ∧ s.sp.val = 0
  /-- A key index out of range: halted at a SKNP whose register still holds more than 15. -/
  keyIndex : s.cause = 4 →
    s.halted = true ∧ ∃ x, decode s.eop = .ok (.sknp x) ∧ 15 < (s.readReg x).toNat
  /-- Codes 5 to 7 are never recorded. -/
  codes : s.cause.toNat ≤ 4
  /-- A halted machine still points at the instruction that halted it. -/
  points : s.halted = true → s.pc = s.epc ∧ s.fetch = s.eop

/-- The invariant of the machine: memory in canonical form, and a status latch that tells the truth. -/
structure Inv (s : State) : Prop where
  /-- Memory is in canonical form. -/
  memory : Memory.wf s.params.glyphTable s.mem = true
  /-- The status latch fits the machine. -/
  latch : LatchOk s

end Sys2Proof.Machine
end

