-- ==== Sys2Proof/Certificates/Slice0/Obligations.lean ====
section
/-! DEFINITION. The statements about dip CORE, each from the rules of spec/ that its docstring names.
Wherever a statement about one instruction gives its encoding, `wordNNN`, `wordXKK` and `wordXYN` put the
fields of 30_encoding.md R71 side by side. -/

open Sys2Proof Sys2Proof.Machine

/-! ### Encoding -/

/-- R71 to R74: the word of every well-formed instruction decodes to it, every operand at every value. Marks:
the spec marks opcode numbers and field places as general knowledge (log entry 10). -/
def Obligations.DecodeOfEncode : Prop :=
  ∀ i : Instr, WellFormed i = true → decode (encode i) = .ok i

/-- R74: a word that decodes gives a well-formed instruction, and is that instruction's word, except that CLS
and RET ignore bits 11:8. Marks: the spec marks opcode numbers and field places as general knowledge (log
entry 10). -/
def Obligations.EncodeOfDecode : Prop :=
  ∀ (w : Word) (i : Instr), decode w = .ok i →
    WellFormed i = true ∧
      (encode i = w ∨ ((i = .cls ∨ i = .ret) ∧ encode i = w &&& 0xF0FF))

/-- R78: the decoder gives an instruction of a row exactly when the word selects the row. Marks: the spec
marks opcode numbers and field places as general knowledge (log entry 10). -/
def Obligations.DecoderFollowsOpcodeMap : Prop :=
  (∀ (w : Word) (i : Instr), decode w = .ok i → SelectsRow w i) ∧
  (∀ (w : Word) (i : Instr), SelectsRow w i →
    ∃ j : Instr, decode w = .ok j ∧ opcodeRow j = opcodeRow i)

/-- R79: the words that are no instruction are those of the table of illegal words, and each is rejected by
name. Marks: the spec marks opcode numbers and field places as general knowledge (log entry 10). -/
def Obligations.IllegalWordsRejected : Prop :=
  ∀ w : Word,
    (IllegalWord w → decode w = .error (.unknownOpcode w)) ∧ (¬ IllegalWord w → ∃ i, decode w = .ok i)

/-- R170: each encoding of the ten instructions that this hardware lacks decodes to none, and a step at such a
word reports DecodeFailure. Marks: the spec marks opcode numbers and field places as general knowledge (log
entry 10); decision D1 of the spec (log entry 14). -/
def Obligations.AbsentInstructionsFailDecode : Prop :=
  ∀ (x y : Reg) (w : Word),
    w ∈ [wordXYN 0x5 x y 0x0, wordXYN 0x8 x y 0x1, wordXYN 0x8 x y 0x3, wordXYN 0x8 x y 0x6,
         wordXYN 0x8 x y 0x7, wordXYN 0x8 x y 0xE, wordXYN 0x9 x y 0x0, wordXKK 0xE x 0x9E,
         wordXKK 0xF x 0x0A, wordXKK 0xF x 0x65] →
    decode w = .error (.unknownOpcode w) ∧
    ∀ s : State, s.halted = false → s.fetch = w →
      ∃ t, step s = .next t ∧ t.report = .decodeFailure ∧ t.cause = 1

/-- R73, R74: words written out from the spec's encodings decode to the instruction they stand for
(95_test_vectors.md 2.1). Marks: the spec marks opcode numbers and field places as general knowledge (log
entry 10). -/
def Obligations.SampleWordsDecode : Prop :=
  decode 0x0AE0 = .ok .cls ∧ decode 0x0FEE = .ok .ret ∧ decode 0x00E1 = .ok (.sys 0x0E1) ∧
  decode 0x2ABC = .ok (.call 0xABC) ∧ decode 0x3A12 = .ok (.seByte 0xA 0x12) ∧
  decode 0x6A12 = .ok (.ldByte 0xA 0x12) ∧ decode 0x8AB5 = .ok (.subReg 0xA 0xB) ∧
  decode 0xAABC = .ok (.ldI 0xABC) ∧ decode 0xDAB5 = .ok (.drw 0xA 0xB 5) ∧
  decode 0xEAA1 = .ok (.sknp 0xA) ∧ decode 0xFA15 = .ok (.ldDT 0xA) ∧ decode 0xFA55 = .ok (.ldMem 0xA) ∧
  decode 0x8AB1 = .error (.unknownOpcode 0x8AB1)

/-! ### The step -/

/-- R52: the fetched word is (byte at pc) * 256 + (byte at pc + 1), each address reduced modulo 4096. Marks:
decision D11 of the spec (log entry 14). -/
def Obligations.FetchIsBigEndian : Prop :=
  ∀ s : State,
    s.fetch.toNat = (Memory.read s.params.glyphTable s.mem (s.pc.toNat % 4096)).toNat * 256 +
      (Memory.read s.params.glyphTable s.mem ((s.pc.toNat + 1) % 4096)).toNat

/-- R75: a step of a machine that is not halted, at a word that decodes to i, is exec of i on that state; the
step adds only that its inputs are used up. Marks: decision D8 of the spec (log entry 14). The inputs being
used up is the model's own: log entry 4. -/
def Obligations.StepRunsDecodedInstruction : Prop :=
  ∀ (s : State) (i : Instr), s.halted = false → decode s.fetch = .ok i →
    WellFormed i = true ∧ step s = mapNext inputsUsed (exec i s)

/-- R185: a step of a halted machine fetches nothing and changes nothing but the outcome reported, while tick
and draw_ack work as ever and a load clears the halt. Marks: decisions D8, D22, D28 of the spec (log entry
14). Reporting Halted by a next state: log entry 6. -/
def Obligations.HaltedStepChangesNothing : Prop :=
  ∀ s : State, s.halted = true →
    step s = .next (inputsUsed { s with report := .halted }) ∧
    drive .tick s = .next s.tick ∧ drive .drawAck s = .next { s with drawNeeded := false } ∧
    ∀ image : List Byte, image.length ≤ 3584 → ∃ t, drive (.resetLoad image) s = .next t ∧ t.halted = false

/-- R183: an illegal word records cause 1, pc and word; under `advance` pc moves on by 2, under `halt` the
machine halts where it is; nothing else changes. Marks: decision D7 of the spec (log entry 14). -/
def Obligations.DecodeFailureByPolicy : Prop :=
  ∀ s : State, s.halted = false → (∃ r, decode s.fetch = .error r) →
    (s.params.unknownOpcode = .advance → ∃ t, step s = .next t ∧
      t.pc.toNat = (s.pc.toNat + 2) % 65536 ∧
      t = inputsUsed { s with cause := 1, epc := s.pc, eop := s.fetch, report := .decodeFailure, pc := t.pc }) ∧
    (s.params.unknownOpcode = .halt →
      step s = .next (inputsUsed { s with cause := 1, epc := s.pc, eop := s.fetch, report := .decodeFailure,
                                          halted := true }))

/-- R172: every step terminates and returns one of the six outcomes of a step: no state and no word stops the
machine. Marks: decision D8 of the spec (log entry 14). -/
def Obligations.EveryStepAnswersNext : Prop :=
  ∀ s : State, ∃ t, step s = .next t ∧
    t.report ∈ [Report.ok, .halted, .decodeFailure, .stackOverflow, .stackUnderflow, .keyIndexOutOfRange]

/-- R52, R61: the word of a well-formed instruction, stored at pc by withFetchWord, which also clears halted,
is what the very next step runs. Marks: clearing halted is the model's choice, so that for a halted machine
the claim rests on log entry 16 and not on R52 and R61 (log entry 15 says what withFetchWord stands for); the
inputs being used up is the model's own: log entry 4. -/
def Obligations.StoredInstructionIsRun : Prop :=
  ∀ (s : State) (i : Instr), WellFormed i = true →
    step (s.withFetchWord 16 (encode i).toNat) =
      mapNext inputsUsed (exec i (s.withFetchWord 16 (encode i).toNat))

/-! ### Control and system instructions -/

/-- R101: CLS zeroes the 2048 cells and advances pc; VF, draw_needed and memory stay. Marks: the spec marks
opcode numbers and field places as general knowledge (log entry 10); decision D20 of the spec (log entry 14).
-/
def Obligations.ClsClearsDisplay : Prop :=
  (∀ x : Reg, decode (wordXKK 0x0 x 0xE0) = .ok .cls) ∧
  ∀ s : State, ∃ t, exec .cls s = .next t ∧
    (∀ k, k < 2048 → t.disp.getLsbD k = false) ∧ t.pc.toNat = (s.pc.toNat + 2) % 65536 ∧
    KeepsRegs s t [] ∧ KeepsMem s t [] ∧
    t = { s with disp := t.disp, pc := t.pc, report := .ok }

/-- R102: RET pops the slot below sp into pc, or, with an empty stack, raises StackUnderflow and writes
nothing else. Marks: the spec marks opcode numbers and field places as general knowledge (log entry 10);
decision D8 of the spec (log entry 14). The word recorded on an error is deduced: log entry 8. -/
def Obligations.RetPopsIntoPc : Prop :=
  (∀ x : Reg, decode (wordXKK 0x0 x 0xEE) = .ok .ret) ∧
  ∀ s : State,
    (0 < s.sp.val → ∃ t, exec .ret s = .next t ∧ t.sp.val = s.sp.val - 1 ∧
      t.pc = s.stack[s.sp.val - 1] ∧ KeepsRegs s t [] ∧ KeepsMem s t [] ∧
      t = { s with sp := t.sp, pc := t.pc, report := .ok }) ∧
    (s.sp.val = 0 → exec .ret s = .next (fatalState s 3 .stackUnderflow))

/-- R100: SYS nnn is a plain jump; a word of group 0 with low byte E0 or EE is no SYS. Marks: the spec marks
opcode numbers and field places as general knowledge (log entry 10); decision D29 of the spec (log entry 14).
-/
def Obligations.SysJumps : Prop :=
  (∀ nnn : BitVec 12, nnn.toNat % 256 ≠ 0xE0 → nnn.toNat % 256 ≠ 0xEE →
    decode (wordNNN 0x0 nnn) = .ok (.sys nnn)) ∧
  (∀ nnn : BitVec 12, nnn.toNat % 256 = 0xE0 ∨ nnn.toNat % 256 = 0xEE →
    decode (wordNNN 0x0 nnn) ≠ .ok (.sys nnn)) ∧
  ∀ (nnn : BitVec 12) (s : State), ∃ t, exec (.sys nnn) s = .next t ∧ t.pc.toNat = nnn.toNat ∧
    KeepsRegs s t [] ∧ KeepsMem s t [] ∧ t = { s with pc := t.pc, report := .ok }

/-- R103: JP nnn sets pc to nnn and changes nothing else. Marks: the spec marks opcode numbers and field
places as general knowledge (log entry 10). -/
def Obligations.JpJumps : Prop :=
  ∀ nnn : BitVec 12, decode (wordNNN 0x1 nnn) = .ok (.jp nnn) ∧
  ∀ s : State, ∃ t, exec (.jp nnn) s = .next t ∧ t.pc.toNat = nnn.toNat ∧
    KeepsRegs s t [] ∧ KeepsMem s t [] ∧ t = { s with pc := t.pc, report := .ok }

/-- R104: CALL nnn pushes pc + 2 and jumps, or, with a full stack, raises StackOverflow and writes nothing
else. Marks: the spec marks opcode numbers and field places as general knowledge (log entry 10); decision D8
of the spec (log entry 14). The word recorded on an error is deduced: log entry 8. -/
def Obligations.CallPushesReturnAddress : Prop :=
  ∀ nnn : BitVec 12, decode (wordNNN 0x2 nnn) = .ok (.call nnn) ∧
  ∀ s : State,
    (∀ h : s.sp.val < 16, ∃ t, exec (.call nnn) s = .next t ∧ t.sp.val = s.sp.val + 1 ∧
      t.stack[s.sp.val].toNat = (s.pc.toNat + 2) % 65536 ∧
      (∀ k (hk : k < 16), k ≠ s.sp.val → t.stack[k] = s.stack[k]) ∧
      t.pc.toNat = nnn.toNat ∧ KeepsRegs s t [] ∧ KeepsMem s t [] ∧
      t = { s with sp := t.sp, stack := t.stack, pc := t.pc, report := .ok }) ∧
    (s.sp.val = 16 → exec (.call nnn) s = .next (fatalState s 2 .stackOverflow))

/-- R105: JP V0, nnn sets pc to the exact sum, which may exceed 4095. Marks: the spec marks opcode numbers and
field places as general knowledge (log entry 10); decision D11 of the spec (log entry 14). -/
def Obligations.JpV0JumpsToSum : Prop :=
  ∀ nnn : BitVec 12, decode (wordNNN 0xB nnn) = .ok (.jpV0 nnn) ∧
  ∀ s : State, ∃ t, exec (.jpV0 nnn) s = .next t ∧ t.pc.toNat = (s.readReg 0).toNat + nnn.toNat ∧
    KeepsRegs s t [] ∧ KeepsMem s t [] ∧ t = { s with pc := t.pc, report := .ok }

/-! ### Skips -/

/-- R110: SE Vx, kk advances pc by 4 if Vx = kk, else by 2, and writes no register. Marks: the spec marks
opcode numbers and field places as general knowledge (log entry 10). -/
def Obligations.SeSkipsIfEqual : Prop :=
  ∀ (x : Reg) (kk : Byte), decode (wordXKK 0x3 x kk) = .ok (.seByte x kk) ∧
  ∀ s : State, ∃ t, exec (.seByte x kk) s = .next t ∧
    t.pc.toNat = (s.pc.toNat + if (s.readReg x).toNat = kk.toNat then 4 else 2) % 65536 ∧
    KeepsRegs s t [] ∧ KeepsMem s t [] ∧ t = { s with pc := t.pc, report := .ok }

/-- R111: SNE Vx, kk advances pc by 4 if Vx differs from kk, else by 2; on every state exactly one of SE and
SNE skips. Marks: the spec marks opcode numbers and field places as general knowledge (log entry 10). -/
def Obligations.SneSkipsIfDifferent : Prop :=
  ∀ (x : Reg) (kk : Byte), decode (wordXKK 0x4 x kk) = .ok (.sneByte x kk) ∧
  ∀ s : State, ∃ t u, exec (.sneByte x kk) s = .next t ∧ exec (.seByte x kk) s = .next u ∧
    t.pc.toNat = (s.pc.toNat + if (s.readReg x).toNat = kk.toNat then 2 else 4) % 65536 ∧
    (t.pc = s.pc + 4 ↔ u.pc ≠ s.pc + 4) ∧
    KeepsRegs s t [] ∧ KeepsMem s t [] ∧ t = { s with pc := t.pc, report := .ok }

/-- R112, R33: SKNP Vx advances pc by 4 if the key of index Vx is not held in this step, else by 2, and the
levels of the step are those handed over to it, if any were; an index above 15 raises KeyIndexOutOfRange and
writes nothing else. Marks: the spec marks opcode numbers and field places as general knowledge (log entry
10); decisions D8, D10, D19 of the spec (log entry 14). The word recorded on an error is deduced: log entry 8.
How levels are handed over is the model's own: log entries 2, 4. -/
def Obligations.SknpSkipsIfNotHeld : Prop :=
  ∀ x : Reg, decode (wordXKK 0xE x 0xA1) = .ok (.sknp x) ∧
  ∀ s : State,
    (∀ h : (s.readReg x).toNat < 16, ∃ t, exec (.sknp x) s = .next t ∧
      t.pc.toNat = (s.pc.toNat + if s.keys[(s.readReg x).toNat] = false then 4 else 2) % 65536 ∧
      KeepsRegs s t [] ∧ KeepsMem s t [] ∧ t = { s with pc := t.pc, report := .ok }) ∧
    (15 < (s.readReg x).toNat → exec (.sknp x) s = .next (fatalState s 4 .keyIndexOutOfRange)) ∧
    ∀ (keys : Keys) (r : RandomDraw) (h : (s.readReg x).toNat < 16), ∃ t,
      exec (.sknp x) (s.withInputs keys r) = .next t ∧
      t.pc.toNat = (s.pc.toNat + if keys[(s.readReg x).toNat] = false then 4 else 2) % 65536

/-! ### Register-immediate instructions -/

/-- R120: LD Vx, kk writes kk to Vx and changes nothing else but pc. Marks: the spec marks opcode numbers and
field places as general knowledge (log entry 10). -/
def Obligations.LdByteLoads : Prop :=
  ∀ (x : Reg) (kk : Byte), decode (wordXKK 0x6 x kk) = .ok (.ldByte x kk) ∧
  ∀ s : State, ∃ t, exec (.ldByte x kk) s = .next t ∧ t.readReg x = kk ∧
    t.pc.toNat = (s.pc.toNat + 2) % 65536 ∧ KeepsRegs s t [x] ∧ KeepsMem s t [] ∧
    t = { s with V := t.V, pc := t.pc, report := .ok }

/-- R121: ADD Vx, kk wraps modulo 256 and touches no flag. Marks: the spec marks opcode numbers and field
places as general knowledge (log entry 10). -/
def Obligations.AddByteWraps : Prop :=
  ∀ (x : Reg) (kk : Byte), decode (wordXKK 0x7 x kk) = .ok (.addByte x kk) ∧
  ∀ s : State, ∃ t, exec (.addByte x kk) s = .next t ∧
    (t.readReg x).toNat = ((s.readReg x).toNat + kk.toNat) % 256 ∧
    t.pc.toNat = (s.pc.toNat + 2) % 65536 ∧ KeepsRegs s t [x] ∧ KeepsMem s t [] ∧
    t = { s with V := t.V, pc := t.pc, report := .ok }

/-- R122: RND Vx, kk writes r & kk for the draw r of this step, which is never 255: the result is never 0xFF,
is 0 when kk is 0, and every other value within kk is reached by some draw. Marks: the spec marks opcode
numbers and field places as general knowledge (log entry 10). -/
def Obligations.RndMasksTheDraw : Prop :=
  ∀ (x : Reg) (kk : Byte), decode (wordXKK 0xC x kk) = .ok (.rnd x kk) ∧
  (∀ s : State, ∃ t, exec (.rnd x kk) s = .next t ∧
    (t.readReg x).toNat = s.draw.val &&& kk.toNat ∧ t.readReg x ≠ 0xFF ∧ (kk = 0 → t.readReg x = 0) ∧
    t.pc.toNat = (s.pc.toNat + 2) % 65536 ∧ KeepsRegs s t [x] ∧ KeepsMem s t [] ∧
    t = { s with V := t.V, pc := t.pc, report := .ok }) ∧
  ∀ v : Byte, v &&& kk = v → v ≠ 0xFF → ∀ (s : State) (keys : Keys), ∃ (r : RandomDraw) (t : State),
    exec (.rnd x kk) (s.withInputs keys r) = .next t ∧ t.readReg x = v

/-! ### Register-register instructions -/

/-- R130: LD Vx, Vy copies Vy to Vx and changes no other register. Marks: the spec marks opcode numbers and
field places as general knowledge (log entry 10). -/
def Obligations.LdRegCopies : Prop :=
  ∀ x y : Reg, decode (wordXYN 0x8 x y 0x0) = .ok (.ldReg x y) ∧
  ∀ s : State, ∃ t, exec (.ldReg x y) s = .next t ∧ t.readReg x = s.readReg y ∧
    t.pc.toNat = (s.pc.toNat + 2) % 65536 ∧ KeepsRegs s t [x] ∧ KeepsMem s t [] ∧
    t = { s with V := t.V, pc := t.pc, report := .ok }

/-- R131: AND Vx, Vy, bit by bit, with no flag. Marks: the spec marks opcode numbers and field places as
general knowledge (log entry 10). -/
def Obligations.AndRegIsBitwise : Prop :=
  ∀ x y : Reg, decode (wordXYN 0x8 x y 0x2) = .ok (.andReg x y) ∧
  ∀ s : State, ∃ t, exec (.andReg x y) s = .next t ∧
    (∀ b, (t.readReg x).getLsbD b = ((s.readReg x).getLsbD b && (s.readReg y).getLsbD b)) ∧
    t.pc.toNat = (s.pc.toNat + 2) % 65536 ∧ KeepsRegs s t [x] ∧ KeepsMem s t [] ∧
    t = { s with V := t.V, pc := t.pc, report := .ok }

/-- R132: ADD Vx, Vy samples both operands, writes the carry to VF and then the sum modulo 256 to Vx; with x =
F the sum is what VF holds. Marks: the spec marks opcode numbers and field places as general knowledge (log
entry 10); decision D6 of the spec (log entry 14). -/
def Obligations.AddRegSetsCarry : Prop :=
  ∀ x y : Reg, decode (wordXYN 0x8 x y 0x4) = .ok (.addReg x y) ∧
  ∀ s : State, ∃ t, exec (.addReg x y) s = .next t ∧
    (t.readReg x).toNat = ((s.readReg x).toNat + (s.readReg y).toNat) % 256 ∧
    (x ≠ regVF → t.readReg regVF = if (s.readReg x).toNat + (s.readReg y).toNat > 255 then 1 else 0) ∧
    t.pc.toNat = (s.pc.toNat + 2) % 65536 ∧ KeepsRegs s t [x, regVF] ∧ KeepsMem s t [] ∧
    t = { s with V := t.V, pc := t.pc, report := .ok }

/-- R133: SUB Vx, Vy samples both operands, writes 1 to VF iff Vx > Vy strictly and then the difference modulo
256 to Vx; with x = F the difference is what VF holds. Marks: the spec marks opcode numbers and field places
as general knowledge (log entry 10); decisions D5, D6 of the spec (log entry 14). -/
def Obligations.SubRegSetsNotBorrow : Prop :=
  ∀ x y : Reg, decode (wordXYN 0x8 x y 0x5) = .ok (.subReg x y) ∧
  ∀ s : State, ∃ t, exec (.subReg x y) s = .next t ∧
    (t.readReg x).toNat = ((s.readReg x).toNat + 256 - (s.readReg y).toNat) % 256 ∧
    (x ≠ regVF → t.readReg regVF = if (s.readReg x).toNat > (s.readReg y).toNat then 1 else 0) ∧
    t.pc.toNat = (s.pc.toNat + 2) % 65536 ∧ KeepsRegs s t [x, regVF] ∧ KeepsMem s t [] ∧
    t = { s with V := t.V, pc := t.pc, report := .ok }

/-! ### Index register and stores -/

/-- R140: LD I, nnn zero-extends nnn into I. Marks: the spec marks opcode numbers and field places as general
knowledge (log entry 10). -/
def Obligations.LdILoadsIndex : Prop :=
  ∀ nnn : BitVec 12, decode (wordNNN 0xA nnn) = .ok (.ldI nnn) ∧
  ∀ s : State, ∃ t, exec (.ldI nnn) s = .next t ∧ t.I.toNat = nnn.toNat ∧
    t.pc.toNat = (s.pc.toNat + 2) % 65536 ∧ KeepsRegs s t [] ∧ KeepsMem s t [] ∧
    t = { s with I := t.I, pc := t.pc, report := .ok }

/-- R141: ADD I, Vx wraps modulo 65536 and writes no flag. Marks: the spec marks opcode numbers and field
places as general knowledge (log entry 10); decision D12 of the spec (log entry 14). -/
def Obligations.AddIAddsToIndex : Prop :=
  ∀ x : Reg, decode (wordXKK 0xF x 0x1E) = .ok (.addI x) ∧
  ∀ s : State, ∃ t, exec (.addI x) s = .next t ∧
    t.I.toNat = (s.I.toNat + (s.readReg x).toNat) % 65536 ∧
    t.pc.toNat = (s.pc.toNat + 2) % 65536 ∧ KeepsRegs s t [] ∧ KeepsMem s t [] ∧
    t = { s with I := t.I, pc := t.pc, report := .ok }

/-- R142: LD F, Vx sets I to 5 * Vx exactly, all 8 bits of Vx used, and does not access memory. Marks: the
spec marks opcode numbers and field places as general knowledge (log entry 10); decision D26 of the spec (log
entry 14). -/
def Obligations.LdFPointsAtGlyph : Prop :=
  ∀ x : Reg, decode (wordXKK 0xF x 0x29) = .ok (.ldF x) ∧
  ∀ s : State, ∃ t, exec (.ldF x) s = .next t ∧ t.I.toNat = (s.readReg x).toNat * 5 ∧
    t.pc.toNat = (s.pc.toNat + 2) % 65536 ∧ KeepsRegs s t [] ∧ KeepsMem s t [] ∧
    t = { s with I := t.I, pc := t.pc, report := .ok }

/-- R143: LD B, Vx stores hundreds, tens and ones at I, I + 1, I + 2 modulo 4096 and changes no other byte, no
register and not I. Marks: the spec marks opcode numbers and field places as general knowledge (log entry 10).
-/
def Obligations.LdBStoresDecimal : Prop :=
  ∀ x : Reg, decode (wordXKK 0xF x 0x33) = .ok (.ldB x) ∧
  ∀ s : State, ∃ t, exec (.ldB x) s = .next t ∧
    (t.memRead s.I.toNat).toNat = (s.readReg x).toNat / 100 ∧
    (t.memRead (s.I.toNat + 1)).toNat = (s.readReg x).toNat / 10 % 10 ∧
    (t.memRead (s.I.toNat + 2)).toNat = (s.readReg x).toNat % 10 ∧
    t.pc.toNat = (s.pc.toNat + 2) % 65536 ∧ KeepsRegs s t [] ∧ KeepsMem s t (storedAddresses s 3) ∧
    t = { s with mem := t.mem, pc := t.pc, report := .ok }

/-- R144: LD [I], Vx stores V0..Vx at I..I+x modulo 4096 and changes no other byte and no register; I moves on
by x + 1 just when STORE_ADVANCES_I is set. Marks: the spec marks opcode numbers and field places as general
knowledge (log entry 10); decision D13 of the spec (log entry 14). -/
def Obligations.LdMemStoresRegisters : Prop :=
  ∀ x : Reg, decode (wordXKK 0xF x 0x55) = .ok (.ldMem x) ∧
  ∀ s : State, ∃ t, exec (.ldMem x) s = .next t ∧
    (∀ r : Reg, r.val ≤ x.val → t.memRead (s.I.toNat + r.val) = s.readReg r) ∧
    (s.params.storeAdvancesI = true → t.I.toNat = (s.I.toNat + x.val + 1) % 65536) ∧
    (s.params.storeAdvancesI = false → t.I = s.I) ∧
    t.pc.toNat = (s.pc.toNat + 2) % 65536 ∧ KeepsRegs s t [] ∧
    KeepsMem s t (storedAddresses s (x.val + 1)) ∧
    t = { s with mem := t.mem, I := t.I, pc := t.pc, report := .ok }

/-! ### Draw -/

/-- R150, R151, R153, R154: DRW toggles exactly the cells under a 1 bit of the sprite, each once, writes 1 to
VF iff one of them was set, sets draw_needed, and changes nothing else; the coordinates are those before VF is
written. Marks: the spec marks opcode numbers and field places as general knowledge (log entry 10); decisions
D6, D14, D15, D20, D27 of the spec (log entry 14). Bit order: log entry 12. -/
def Obligations.DrwXorsSprite : Prop :=
  ∀ (x y : Reg) (n : BitVec 4), decode (wordXYN 0xD x y n) = .ok (.drw x y n) ∧
  ∀ s : State, ∃ t, exec (.drw x y n) s = .next t ∧
    (∀ k, k < 2048 →
      (SpriteCovers s x y n k → t.disp.getLsbD k = !(s.disp.getLsbD k)) ∧
      (¬ SpriteCovers s x y n k → t.disp.getLsbD k = s.disp.getLsbD k)) ∧
    ((∃ k, SpriteCovers s x y n k ∧ s.disp.getLsbD k = true) → t.readReg regVF = 1) ∧
    ((¬ ∃ k, SpriteCovers s x y n k ∧ s.disp.getLsbD k = true) → t.readReg regVF = 0) ∧
    t.drawNeeded = true ∧ t.pc.toNat = (s.pc.toNat + 2) % 65536 ∧
    KeepsRegs s t [regVF] ∧ KeepsMem s t [] ∧
    t = { s with disp := t.disp, V := t.V, drawNeeded := true, pc := t.pc, report := .ok }

/-- §8 of the source in 95_test_vectors.md S4, for every sprite: the same DRW executed again at once restores
the display; on a clear display the first reports no collision and the second reports one just when the sprite
has a 1 bit. Marks: decisions D14, D15 of the spec (log entry 14). -/
def Obligations.DrawTwiceRestores : Prop :=
  ∀ (x y : Reg) (n : BitVec 4) (s : State), x ≠ regVF → y ≠ regVF →
    ∃ t u, exec (.drw x y n) s = .next t ∧ exec (.drw x y n) t = .next u ∧ u.disp = s.disp ∧
      (s.disp = 0 → t.readReg regVF = 0 ∧
        (u.readReg regVF = 1 ↔ ∃ row < n.toNat, s.memRead (s.I.toNat + row) ≠ 0))

/-! ### Timers -/

/-- R160: LD Vx, DT copies the delay timer to Vx; DT is unchanged. Marks: the spec marks opcode numbers and
field places as general knowledge (log entry 10). -/
def Obligations.LdFromDTReadsTimer : Prop :=
  ∀ x : Reg, decode (wordXKK 0xF x 0x07) = .ok (.ldFromDT x) ∧
  ∀ s : State, ∃ t, exec (.ldFromDT x) s = .next t ∧ t.readReg x = s.DT ∧
    t.pc.toNat = (s.pc.toNat + 2) % 65536 ∧ KeepsRegs s t [x] ∧ KeepsMem s t [] ∧
    t = { s with V := t.V, pc := t.pc, report := .ok }

/-- R161: LD DT, Vx replaces the delay timer by Vx. Marks: the spec marks opcode numbers and field places as
general knowledge (log entry 10). -/
def Obligations.LdDTSetsTimer : Prop :=
  ∀ x : Reg, decode (wordXKK 0xF x 0x15) = .ok (.ldDT x) ∧
  ∀ s : State, ∃ t, exec (.ldDT x) s = .next t ∧ t.DT = s.readReg x ∧
    t.pc.toNat = (s.pc.toNat + 2) % 65536 ∧ KeepsRegs s t [] ∧ KeepsMem s t [] ∧
    t = { s with DT := t.DT, pc := t.pc, report := .ok }

/-- R162: LD ST, Vx replaces the sound timer by Vx. Marks: the spec marks opcode numbers and field places as
general knowledge (log entry 10). -/
def Obligations.LdSTSetsSound : Prop :=
  ∀ x : Reg, decode (wordXKK 0xF x 0x18) = .ok (.ldST x) ∧
  ∀ s : State, ∃ t, exec (.ldST x) s = .next t ∧ t.ST = s.readReg x ∧
    t.pc.toNat = (s.pc.toNat + 2) % 65536 ∧ KeepsRegs s t [] ∧ KeepsMem s t [] ∧
    t = { s with ST := t.ST, pc := t.pc, report := .ok }

/-! ### Rules over all instructions -/

/-- §8 of the source in 95_test_vectors.md S5: CALL nnn followed at once by RET restores pc to the instruction
after the CALL, and sp to what it was. -/
def Obligations.CallThenRetReturns : Prop :=
  ∀ (nnn : BitVec 12) (s : State), s.sp.val < 16 →
    ∃ t u, exec (.call nnn) s = .next t ∧ exec .ret t = .next u ∧
      u.pc.toNat = (s.pc.toNat + 2) % 65536 ∧ u.sp = s.sp ∧ u.V = s.V ∧ u.I = s.I

/-- R23: an instruction that completes writes no general register but those of its W columns. -/
def Obligations.RegistersWrittenAsTabled : Prop :=
  ∀ (i : Instr) (s t : State), exec i s = .next t → KeepsRegs s t (regsWritten i)

/-- R22: ADD Vx, Vy, SUB Vx, Vy and DRW write VF to 1 or 0 on every execution (ADD and SUB unless x = F, where
the result follows); no other instruction writes VF unless it names F as x. Marks: decisions D5, D6 of the
spec (log entry 14). -/
def Obligations.FlagWrittenByThree : Prop :=
  ∀ (i : Instr) (s t : State), exec i s = .next t →
    ((∃ x y, x ≠ regVF ∧ (i = .addReg x y ∨ i = .subReg x y)) ∨ (∃ x y n, i = .drw x y n) →
      t.readReg regVF = 0 ∨ t.readReg regVF = 1) ∧
    (regVF ∉ regsWritten i → t.readReg regVF = s.readReg regVF)

/-- R27: pc after an instruction that completes is that of the table, and after one that raises an error it is
unchanged. Marks: decisions D8, D11 of the spec (log entry 14). -/
def Obligations.PcAfterEveryInstruction : Prop :=
  ∀ (i : Instr) (s t : State), exec i s = .next t →
    (t.report = .ok → t.pc.toNat = pcAfter s i) ∧ (t.report ≠ .ok → t.pc = s.pc)

/-- R28: a step changes the call stack or sp only by a CALL or a RET. Marks: decision D18 of the spec (log
entry 14). -/
def Obligations.OnlyCallAndRetMoveStack : Prop :=
  ∀ s t : State, step s = .next t → t.sp ≠ s.sp ∨ t.stack ≠ s.stack →
    decode s.fetch = .ok .ret ∨ ∃ nnn, decode s.fetch = .ok (.call nnn)

/-- R30, R75: a step changes DT only by LD DT, Vx and ST only by LD ST, Vx, and then to Vx; it never counts
them down. -/
def Obligations.StepNeverCountsTimers : Prop :=
  ∀ s t : State, step s = .next t →
    (t.DT ≠ s.DT → ∃ x, decode s.fetch = .ok (.ldDT x) ∧ t.DT = s.readReg x) ∧
    (t.ST ≠ s.ST → ∃ x, decode s.fetch = .ok (.ldST x) ∧ t.ST = s.readReg x)

/-- R32, R34: a step changes the display only by CLS or DRW, and draw_needed only by a DRW, which sets it.
Marks: decision D20 of the spec (log entry 14). -/
def Obligations.OnlyClsAndDrwChangeDisplay : Prop :=
  ∀ s t : State, step s = .next t →
    (t.disp ≠ s.disp → decode s.fetch = .ok .cls ∨ ∃ x y n, decode s.fetch = .ok (.drw x y n)) ∧
    (t.drawNeeded ≠ s.drawNeeded →
      t.drawNeeded = true ∧ ∃ x y n, decode s.fetch = .ok (.drw x y n))

/-- R31, R54: a step changes a byte of memory only by LD B at one of the three addresses or by LD [I] at one
of the x + 1 addresses. -/
def Obligations.OnlyStoresChangeMemory : Prop :=
  ∀ (s t : State) (a : Nat), step s = .next t → t.memRead a ≠ s.memRead a →
    (∃ x, decode s.fetch = .ok (.ldB x) ∧ a % 4096 ∈ storedAddresses s 3) ∨
    (∃ x, decode s.fetch = .ok (.ldMem x) ∧ a % 4096 ∈ storedAddresses s (x.val + 1))

/-- R25: a step changes I only by LD I, ADD I, LD F and, where STORE_ADVANCES_I is set, LD [I]. Marks:
decisions D12, D13 of the spec (log entry 14). -/
def Obligations.OnlyIndexInstructionsChangeI : Prop :=
  ∀ s t : State, step s = .next t → t.I ≠ s.I →
    (∃ nnn, decode s.fetch = .ok (.ldI nnn)) ∨ (∃ x, decode s.fetch = .ok (.addI x)) ∨
    (∃ x, decode s.fetch = .ok (.ldF x)) ∨
    (s.params.storeAdvancesI = true ∧ ∃ x, decode s.fetch = .ok (.ldMem x))

/-- R182: CALL can raise only StackOverflow, RET only StackUnderflow, SKNP only KeyIndexOutOfRange, every
other instruction nothing; each on its condition at the start of the step, and an instruction that completes
leaves the status latch alone. Marks: decisions D8, D9, D10 of the spec (log entry 14). -/
def Obligations.ErrorsRaisedAsTabled : Prop :=
  ∀ (i : Instr) (s t : State), exec i s = .next t →
    (t.report = .ok ∧ t.halted = s.halted ∧ t.cause = s.cause ∧ t.epc = s.epc ∧ t.eop = s.eop) ∨
    (t.report = .stackOverflow ∧ s.sp.val = 16 ∧ ∃ nnn, i = .call nnn) ∨
    (t.report = .stackUnderflow ∧ s.sp.val = 0 ∧ i = .ret) ∨
    (t.report = .keyIndexOutOfRange ∧ ∃ x, i = .sknp x ∧ 15 < (s.readReg x).toNat)

/-- R8: the key levels are read only by SKNP and the random draw only by RND: handing other inputs to any
other instruction changes nothing but those inputs. Marks: decisions D16, D19 of the spec (log entry 14). -/
def Obligations.InputsReachOnlySknpAndRnd : Prop :=
  ∀ (i : Instr) (s : State) (keys keys' : Keys) (r r' : RandomDraw),
    ((∀ x, i ≠ .sknp x) → (∀ x kk, i ≠ .rnd x kk) →
      exec i (s.withInputs keys r) = mapNext (fun t => t.withInputs keys r) (exec i s)) ∧
    ((∀ x, i ≠ .sknp x) →
      exec i (s.withInputs keys' r) = mapNext (fun t => t.withInputs keys' r) (exec i (s.withInputs keys r))) ∧
    ((∀ x kk, i ≠ .rnd x kk) →
      exec i (s.withInputs keys r') = mapNext (fun t => t.withInputs keys r') (exec i (s.withInputs keys r)))

/-- R30, R34, R35: no instruction reads ST, draw_needed, cause, epc or eop: two machines that differ at most
there and in the outcome reported still differ at most there after a step. halted, which a step does test, is
equal in both. Marks: decisions D8, D9, D20 of the spec (log entry 14). The outcome kept in State is the
model's own: log entry 5. -/
def Obligations.OutputsInvisibleToProgram : Prop :=
  ∀ s t : State, SameButOutputs s t →
    ∃ s' t', step s = .next s' ∧ step t = .next t' ∧ SameButOutputs s' t'

/-! ### The other operations -/

/-- R163: tick() decrements each nonzero timer by one, whether or not the machine is halted, and changes
nothing else. Marks: decision D22 of the spec (log entry 14). -/
def Obligations.TickCountsEachTimer : Prop :=
  ∀ s : State, ∃ t, drive .tick s = .next t ∧
    t.DT.toNat = (if s.DT.toNat > 0 then s.DT.toNat - 1 else s.DT.toNat) ∧
    t.ST.toNat = (if s.ST.toNat > 0 then s.ST.toNat - 1 else s.ST.toNat) ∧
    t = { s with DT := t.DT, ST := t.ST }

/-- R203, R7, R33: draw_ack() clears draw_needed and changes nothing else, and a key change sets the levels
that the next step sees on keys and changes nothing else; both do so halted or not. Marks: decisions D19, D20,
D21 of the spec (log entry 14). The form of a key change is the model's own: log entry 22. -/
def Obligations.DrawAckAndKeyChangeEffects : Prop :=
  ∀ s : State, drive .drawAck s = .next { s with drawNeeded := false } ∧
    ∀ keys : Keys, ∃ t, drive (.keyChange keys) s = .next t ∧ t.keys = keys ∧ t.draw = s.draw ∧
      t = { s with keysPort := t.keysPort }

/-- R210: reset_load of an image that fits leaves the glyph table at 0..79, zeros, the image from 512 on,
every register, slot, timer, cell and latch at 0 and pc at 512; the inputs are not affected. Marks: decision
D24 of the spec (log entry 14). -/
def Obligations.ResetLoadInitialises : Prop :=
  ∀ (s : State) (image : List Byte), image.length ≤ 3584 →
    ∃ t, drive (.resetLoad image) s = .next t ∧
      (∀ a (h : a < 80), t.memRead a = s.params.glyphTable[a]) ∧
      (∀ a, 80 ≤ a → a < 512 → t.memRead a = 0) ∧
      (∀ j (h : j < image.length), t.memRead (512 + j) = image[j]) ∧
      (∀ a, 512 + image.length ≤ a → a < 4096 → t.memRead a = 0) ∧
      (∀ r : Reg, t.readReg r = 0) ∧ (∀ k (h : k < 16), t.stack[k] = 0) ∧
      (∀ k, k < 2048 → t.disp.getLsbD k = false) ∧
      t.I = 0 ∧ t.pc = 512 ∧ t.sp = 0 ∧ t.DT = 0 ∧ t.ST = 0 ∧ t.drawNeeded = false ∧
      t.halted = false ∧ t.cause = 0 ∧ t.epc = 0 ∧ t.eop = 0 ∧ t.report = .ok ∧
      t.params = s.params ∧ t.keysPort = s.keysPort ∧ t.drawPort = s.drawPort ∧ t.fresh = s.fresh

/-- R211: an image of 3585 bytes or more is refused with ImageTooLarge and nothing is changed but the outcome
reported. Marks: decision D24 of the spec (log entry 14). -/
def Obligations.LongImageRefused : Prop :=
  ∀ (s : State) (image : List Byte), 3585 ≤ image.length →
    drive (.resetLoad image) s = .next { s with report := .imageTooLarge }

/-- R37: the reset values; memory holds the glyph table (the spec's default) and zeros, since no image is
loaded. Marks: decisions D8, D9, D20 of the spec (log entry 14). The glyph bytes are general knowledge in the
spec: log entry 11. -/
def Obligations.ResetValues : Prop :=
  (∀ r : Reg, State.reset.readReg r = 0) ∧ State.reset.I = 0 ∧ State.reset.pc = 0x0200 ∧
  State.reset.sp = 0 ∧ (∀ k (h : k < 16), State.reset.stack[k] = 0) ∧ State.reset.DT = 0 ∧
  State.reset.ST = 0 ∧
  (∀ a, a < 4096 → State.reset.memRead a = if h : a < 80 then Config.defaultGlyphs[a] else 0) ∧
  (∀ k, k < 2048 → State.reset.disp.getLsbD k = false) ∧ State.reset.drawNeeded = false ∧
  State.reset.halted = false ∧ State.reset.cause = 0 ∧ State.reset.epc = 0 ∧ State.reset.eop = 0

/-! ### Invariants -/

/-- The invariant holds at reset, whatever the parameters. Marks: The canonical form and the parameters in
State are the model's own: log entries 1, 9. -/
def Obligations.ResetMeetsInvariant : Prop := ∀ p : Params, Inv (State.resetWith p)

/-- The invariant is kept by every step: memory stays canonical, and the status latch goes on telling what
R181, R183 and R184 say of the most recent error. Marks: decisions D7, D8, D9 of the spec (log entry 14). The
canonical form is the model's own: log entry 9. -/
def Obligations.StepKeepsInvariant : Prop :=
  ∀ s t : State, Inv s → step s = .next t → Inv t

/-- Every sequence of operations of R7, from every state of the invariant, ends in a state of the invariant,
and the parameters stay what they were. Marks: decisions D8, D9, D24, D25 of the spec (log entry 14). The
canonical form is the model's own: log entry 9. -/
def Obligations.OperationsKeepInvariant : Prop :=
  ∀ (es : List Event) (s : State), Inv s →
    ∃ t, driveAll es s = .next t ∧ Inv t ∧ t.params = s.params

/-- R185: no sequence of operations without a reset_load changes a halted machine, but for what tick, draw_ack
and key changes do. Marks: decisions D8, D22, D28 of the spec (log entry 14). -/
def Obligations.HaltedUntilReset : Prop :=
  ∀ (es : List Event) (s : State), s.halted = true → (∀ image, Event.resetLoad image ∉ es) →
    ∃ t, driveAll es s = .next t ∧ t.halted = true ∧ FrozenBy s t

/-- R223: from a normally stopped state every step answers Ok and changes nothing, for ever, while the host
only steps, ticks, acknowledges and changes keys. Marks: decision D28 of the spec (log entry 14). -/
def Obligations.StoppedNormallyStays : Prop :=
  (∀ s : State, StoppedNormally s → step s = .next (inputsUsed { s with report := .ok })) ∧
  ∀ (es : List Event) (s : State), StoppedNormally s → (∀ image, Event.resetLoad image ∉ es) →
    ∃ t, driveAll es s = .next t ∧ StoppedNormally t ∧ FrozenBy s t
end

