-- ==== Sys2Proof/Laws/Decode.lean ====
section
/-! SUPPORT. The fields of the words that the formats of 30_encoding.md rule R71 put together, and the ways
a word can fail to decode. -/

namespace Sys2Proof

/-! ### Words as numbers -/

theorem toNat_append_eq {m n : Nat} (a : BitVec m) (b : BitVec n) :
    (a ++ b).toNat = a.toNat * 2 ^ n + b.toNat := by
  rw [BitVec.toNat_append, ← Nat.shiftLeft_add_eq_or_of_lt b.isLt, Nat.shiftLeft_eq]

theorem wordNNN_toNat (t : BitVec 4) (nnn : BitVec 12) :
    (wordNNN t nnn).toNat = t.toNat * 4096 + nnn.toNat := toNat_append_eq t nnn

theorem wordXKK_toNat (t : BitVec 4) (x : Reg) (kk : Byte) :
    (wordXKK t x kk).toNat = t.toNat * 4096 + x.val * 256 + kk.toNat := by
  have h1 : (t ++ (BitVec.ofFin x : BitVec 4)).toNat = t.toNat * 16 + x.val := toNat_append_eq _ _
  have h2 : (wordXKK t x kk).toNat = (t ++ (BitVec.ofFin x : BitVec 4)).toNat * 256 + kk.toNat :=
    toNat_append_eq _ _
  rw [h2, h1]; ring

theorem wordXYN_toNat (t : BitVec 4) (x y : Reg) (n : BitVec 4) :
    (wordXYN t x y n).toNat = t.toNat * 4096 + x.val * 256 + y.val * 16 + n.toNat := by
  have h1 : (t ++ (BitVec.ofFin x : BitVec 4)).toNat = t.toNat * 16 + x.val := toNat_append_eq _ _
  have h2 : (t ++ (BitVec.ofFin x : BitVec 4) ++ (BitVec.ofFin y : BitVec 4)).toNat =
      (t ++ (BitVec.ofFin x : BitVec 4)).toNat * 16 + y.val := toNat_append_eq _ _
  have h3 : (wordXYN t x y n).toNat =
      (t ++ (BitVec.ofFin x : BitVec 4) ++ (BitVec.ofFin y : BitVec 4)).toNat * 16 + n.toNat :=
    toNat_append_eq _ _
  rw [h3, h2, h1]; ring

theorem topNibble_toNat (w : Word) : (topNibble w).toNat = w.toNat / 4096 := by
  have := w.isLt
  simp only [topNibble, BitVec.extractLsb'_toNat, Nat.shiftRight_eq_div_pow]
  omega

theorem fieldNNN_toNat (w : Word) : (fieldNNN w).toNat = w.toNat % 4096 := by
  simp only [fieldNNN, BitVec.extractLsb'_toNat, Nat.shiftRight_zero]

theorem fieldX_val (w : Word) : (fieldX w).val = w.toNat / 256 % 16 := by
  have : (fieldX w).val = (w.extractLsb' 8 4).toNat := rfl
  rw [this, BitVec.extractLsb'_toNat, Nat.shiftRight_eq_div_pow]

theorem fieldY_val (w : Word) : (fieldY w).val = w.toNat / 16 % 16 := by
  have : (fieldY w).val = (w.extractLsb' 4 4).toNat := rfl
  rw [this, BitVec.extractLsb'_toNat, Nat.shiftRight_eq_div_pow]

theorem fieldKK_toNat (w : Word) : (fieldKK w).toNat = w.toNat % 256 := by
  simp only [fieldKK, BitVec.extractLsb'_toNat, Nat.shiftRight_zero]

theorem fieldN_toNat (w : Word) : (fieldN w).toNat = w.toNat % 16 := by
  simp only [fieldN, BitVec.extractLsb'_toNat, Nat.shiftRight_zero]

/-! ### The fields of a word put together -/

@[simp] theorem topNibble_wordNNN (t : BitVec 4) (nnn : BitVec 12) : topNibble (wordNNN t nnn) = t := by
  have := nnn.isLt
  apply BitVec.eq_of_toNat_eq; rw [topNibble_toNat, wordNNN_toNat]; omega

@[simp] theorem topNibble_wordXKK (t : BitVec 4) (x : Reg) (kk : Byte) : topNibble (wordXKK t x kk) = t := by
  have := kk.isLt
  apply BitVec.eq_of_toNat_eq; rw [topNibble_toNat, wordXKK_toNat]; omega

@[simp] theorem topNibble_wordXYN (t : BitVec 4) (x y : Reg) (n : BitVec 4) :
    topNibble (wordXYN t x y n) = t := by
  have := n.isLt
  apply BitVec.eq_of_toNat_eq; rw [topNibble_toNat, wordXYN_toNat]; omega

@[simp] theorem fieldNNN_wordNNN (t : BitVec 4) (nnn : BitVec 12) : fieldNNN (wordNNN t nnn) = nnn := by
  have := nnn.isLt
  apply BitVec.eq_of_toNat_eq; rw [fieldNNN_toNat, wordNNN_toNat]; omega

@[simp] theorem fieldKK_wordNNN (t : BitVec 4) (nnn : BitVec 12) :
    fieldKK (wordNNN t nnn) = nnn.extractLsb' 0 8 := by
  apply BitVec.eq_of_toNat_eq
  rw [fieldKK_toNat, wordNNN_toNat, BitVec.extractLsb'_toNat, Nat.shiftRight_zero]; omega

@[simp] theorem fieldX_wordXKK (t : BitVec 4) (x : Reg) (kk : Byte) : fieldX (wordXKK t x kk) = x := by
  have := kk.isLt
  apply Fin.ext; rw [fieldX_val, wordXKK_toNat]; omega

@[simp] theorem fieldKK_wordXKK (t : BitVec 4) (x : Reg) (kk : Byte) : fieldKK (wordXKK t x kk) = kk := by
  have := kk.isLt
  apply BitVec.eq_of_toNat_eq; rw [fieldKK_toNat, wordXKK_toNat]; omega

@[simp] theorem fieldX_wordXYN (t : BitVec 4) (x y : Reg) (n : BitVec 4) : fieldX (wordXYN t x y n) = x := by
  have := n.isLt
  apply Fin.ext; rw [fieldX_val, wordXYN_toNat]; omega

@[simp] theorem fieldY_wordXYN (t : BitVec 4) (x y : Reg) (n : BitVec 4) : fieldY (wordXYN t x y n) = y := by
  have := n.isLt
  apply Fin.ext; rw [fieldY_val, wordXYN_toNat]; omega

@[simp] theorem fieldN_wordXYN (t : BitVec 4) (x y : Reg) (n : BitVec 4) : fieldN (wordXYN t x y n) = n := by
  have := n.isLt
  apply BitVec.eq_of_toNat_eq; rw [fieldN_toNat, wordXYN_toNat]; omega

/-! ### Masks -/

/-- A word is its four nibbles. -/
theorem wordXYN_fields (w : Word) : wordXYN (topNibble w) (fieldX w) (fieldY w) (fieldN w) = w := by
  have := w.isLt
  apply BitVec.eq_of_toNat_eq
  rw [wordXYN_toNat, topNibble_toNat, fieldX_val, fieldY_val, fieldN_toNat]
  omega

theorem and_append {m n : Nat} (a c : BitVec m) (b d : BitVec n) :
    (a ++ b) &&& (c ++ d) = (a &&& c) ++ (b &&& d) := by
  ext i hi
  simp only [BitVec.getElem_and, BitVec.getElem_append]
  split <;> rfl

theorem nibble_and_ones (t : BitVec 4) : t &&& 0xF = t := by decide +revert

/-- The mask F000 of the opcode map keeps the top nibble (30_encoding.md R78). -/
theorem wordXYN_and_F000 (t : BitVec 4) (x y : Reg) (n : BitVec 4) :
    wordXYN t x y n &&& 0xF000 = wordXYN t 0 0 0 := by
  have h : wordXYN t x y n &&& wordXYN 0xF 0 0 0 = wordXYN (t &&& 0xF) 0 0 0 := by
    unfold wordXYN
    rw [and_append, and_append, and_append]
    simp
  rw [nibble_and_ones] at h
  exact h

/-- The mask F00F of the opcode map keeps the top and the low nibble (30_encoding.md R78). -/
theorem wordXYN_and_F00F (t : BitVec 4) (x y : Reg) (n : BitVec 4) :
    wordXYN t x y n &&& 0xF00F = wordXYN t 0 0 n := by
  have h : wordXYN t x y n &&& wordXYN 0xF 0 0 0xF = wordXYN (t &&& 0xF) 0 0 (n &&& 0xF) := by
    unfold wordXYN
    rw [and_append, and_append, and_append]
    simp
  rw [nibble_and_ones, nibble_and_ones] at h
  exact h

/-- The mask F0FF of the opcode map drops x (30_encoding.md R78). -/
theorem wordXYN_and_F0FF (t : BitVec 4) (x y : Reg) (n : BitVec 4) :
    wordXYN t x y n &&& 0xF0FF = wordXYN t 0 y n := by
  have h : wordXYN t x y n &&& wordXYN 0xF 0 0xF 0xF =
      (t &&& 0xF) ++ ((BitVec.ofFin x : BitVec 4) &&& 0#4) ++ ((BitVec.ofFin y : BitVec 4) &&& 0xF) ++ (n &&& 0xF) := by
    unfold wordXYN
    rw [and_append, and_append, and_append]
    rfl
  rw [nibble_and_ones, nibble_and_ones, nibble_and_ones, BitVec.and_zero] at h
  exact h

/-! ### Bytes -/

theorem wordOfBytes_toNat (hi lo : Byte) : (wordOfBytes hi lo).toNat = hi.toNat * 256 + lo.toNat :=
  toNat_append_eq hi lo

@[simp] theorem wordOfBytes_bytes (w : Word) : wordOfBytes (highByte w) (lowByte w) = w := by
  have := w.isLt
  apply BitVec.eq_of_toNat_eq
  rw [wordOfBytes_toNat, highByte, lowByte, BitVec.extractLsb'_toNat, BitVec.extractLsb'_toNat,
    Nat.shiftRight_zero, Nat.shiftRight_eq_div_pow]
  omega

theorem tableWord_toNat (w : Word) : tableWord 16 w.toNat = w := by
  have := w.isLt
  apply BitVec.eq_of_toNat_eq
  rw [tableWord, BitVec.toNat_ofNat]
  omega

/-! ### Failing to decode -/

/-- A word is rejected under one name only, and the name carries the word. -/
theorem decode_error {w : Word} {r : DecodeReject} (h : decode w = .error r) : r = .unknownOpcode w := by
  unfold decode decodeGroup0 decodeGroup8 decodeGroupE decodeGroupF at h
  split at h <;> (repeat' split at h) <;> cases h <;> rfl

end Sys2Proof
end

