-- ==== Sys2Proof/Laws/State.lean ====
section
/-! SUPPORT. What each update of the state does to each field, true by definition, so that no proof unfolds a
record update. -/

namespace Sys2Proof.Machine

variable (s : State)

/-! `State.memWrite` -/

@[simp] theorem State.memWrite_V (a : Nat) (v : Byte) : (s.memWrite a v).V = s.V := rfl
@[simp] theorem State.memWrite_I (a : Nat) (v : Byte) : (s.memWrite a v).I = s.I := rfl
@[simp] theorem State.memWrite_pc (a : Nat) (v : Byte) : (s.memWrite a v).pc = s.pc := rfl
@[simp] theorem State.memWrite_sp (a : Nat) (v : Byte) : (s.memWrite a v).sp = s.sp := rfl
@[simp] theorem State.memWrite_stack (a : Nat) (v : Byte) : (s.memWrite a v).stack = s.stack := rfl
@[simp] theorem State.memWrite_DT (a : Nat) (v : Byte) : (s.memWrite a v).DT = s.DT := rfl
@[simp] theorem State.memWrite_ST (a : Nat) (v : Byte) : (s.memWrite a v).ST = s.ST := rfl
@[simp] theorem State.memWrite_mem (a : Nat) (v : Byte) : (s.memWrite a v).mem = Memory.write s.params.glyphTable s.mem (a % 4096) v := rfl
@[simp] theorem State.memWrite_disp (a : Nat) (v : Byte) : (s.memWrite a v).disp = s.disp := rfl
@[simp] theorem State.memWrite_drawNeeded (a : Nat) (v : Byte) : (s.memWrite a v).drawNeeded = s.drawNeeded := rfl
@[simp] theorem State.memWrite_halted (a : Nat) (v : Byte) : (s.memWrite a v).halted = s.halted := rfl
@[simp] theorem State.memWrite_cause (a : Nat) (v : Byte) : (s.memWrite a v).cause = s.cause := rfl
@[simp] theorem State.memWrite_epc (a : Nat) (v : Byte) : (s.memWrite a v).epc = s.epc := rfl
@[simp] theorem State.memWrite_eop (a : Nat) (v : Byte) : (s.memWrite a v).eop = s.eop := rfl
@[simp] theorem State.memWrite_report (a : Nat) (v : Byte) : (s.memWrite a v).report = s.report := rfl
@[simp] theorem State.memWrite_params (a : Nat) (v : Byte) : (s.memWrite a v).params = s.params := rfl
@[simp] theorem State.memWrite_keysPort (a : Nat) (v : Byte) : (s.memWrite a v).keysPort = s.keysPort := rfl
@[simp] theorem State.memWrite_drawPort (a : Nat) (v : Byte) : (s.memWrite a v).drawPort = s.drawPort := rfl
@[simp] theorem State.memWrite_fresh (a : Nat) (v : Byte) : (s.memWrite a v).fresh = s.fresh := rfl

/-! `State.writeReg` -/

@[simp] theorem State.writeReg_V (r : Reg) (v : Byte) : (s.writeReg r v).V = s.V.set r v := rfl
@[simp] theorem State.writeReg_I (r : Reg) (v : Byte) : (s.writeReg r v).I = s.I := rfl
@[simp] theorem State.writeReg_pc (r : Reg) (v : Byte) : (s.writeReg r v).pc = s.pc := rfl
@[simp] theorem State.writeReg_sp (r : Reg) (v : Byte) : (s.writeReg r v).sp = s.sp := rfl
@[simp] theorem State.writeReg_stack (r : Reg) (v : Byte) : (s.writeReg r v).stack = s.stack := rfl
@[simp] theorem State.writeReg_DT (r : Reg) (v : Byte) : (s.writeReg r v).DT = s.DT := rfl
@[simp] theorem State.writeReg_ST (r : Reg) (v : Byte) : (s.writeReg r v).ST = s.ST := rfl
@[simp] theorem State.writeReg_mem (r : Reg) (v : Byte) : (s.writeReg r v).mem = s.mem := rfl
@[simp] theorem State.writeReg_disp (r : Reg) (v : Byte) : (s.writeReg r v).disp = s.disp := rfl
@[simp] theorem State.writeReg_drawNeeded (r : Reg) (v : Byte) : (s.writeReg r v).drawNeeded = s.drawNeeded := rfl
@[simp] theorem State.writeReg_halted (r : Reg) (v : Byte) : (s.writeReg r v).halted = s.halted := rfl
@[simp] theorem State.writeReg_cause (r : Reg) (v : Byte) : (s.writeReg r v).cause = s.cause := rfl
@[simp] theorem State.writeReg_epc (r : Reg) (v : Byte) : (s.writeReg r v).epc = s.epc := rfl
@[simp] theorem State.writeReg_eop (r : Reg) (v : Byte) : (s.writeReg r v).eop = s.eop := rfl
@[simp] theorem State.writeReg_report (r : Reg) (v : Byte) : (s.writeReg r v).report = s.report := rfl
@[simp] theorem State.writeReg_params (r : Reg) (v : Byte) : (s.writeReg r v).params = s.params := rfl
@[simp] theorem State.writeReg_keysPort (r : Reg) (v : Byte) : (s.writeReg r v).keysPort = s.keysPort := rfl
@[simp] theorem State.writeReg_drawPort (r : Reg) (v : Byte) : (s.writeReg r v).drawPort = s.drawPort := rfl
@[simp] theorem State.writeReg_fresh (r : Reg) (v : Byte) : (s.writeReg r v).fresh = s.fresh := rfl

/-! `State.setI` -/

@[simp] theorem State.setI_V (v : Word) : (s.setI v).V = s.V := rfl
@[simp] theorem State.setI_I (v : Word) : (s.setI v).I = v := rfl
@[simp] theorem State.setI_pc (v : Word) : (s.setI v).pc = s.pc := rfl
@[simp] theorem State.setI_sp (v : Word) : (s.setI v).sp = s.sp := rfl
@[simp] theorem State.setI_stack (v : Word) : (s.setI v).stack = s.stack := rfl
@[simp] theorem State.setI_DT (v : Word) : (s.setI v).DT = s.DT := rfl
@[simp] theorem State.setI_ST (v : Word) : (s.setI v).ST = s.ST := rfl
@[simp] theorem State.setI_mem (v : Word) : (s.setI v).mem = s.mem := rfl
@[simp] theorem State.setI_disp (v : Word) : (s.setI v).disp = s.disp := rfl
@[simp] theorem State.setI_drawNeeded (v : Word) : (s.setI v).drawNeeded = s.drawNeeded := rfl
@[simp] theorem State.setI_halted (v : Word) : (s.setI v).halted = s.halted := rfl
@[simp] theorem State.setI_cause (v : Word) : (s.setI v).cause = s.cause := rfl
@[simp] theorem State.setI_epc (v : Word) : (s.setI v).epc = s.epc := rfl
@[simp] theorem State.setI_eop (v : Word) : (s.setI v).eop = s.eop := rfl
@[simp] theorem State.setI_report (v : Word) : (s.setI v).report = s.report := rfl
@[simp] theorem State.setI_params (v : Word) : (s.setI v).params = s.params := rfl
@[simp] theorem State.setI_keysPort (v : Word) : (s.setI v).keysPort = s.keysPort := rfl
@[simp] theorem State.setI_drawPort (v : Word) : (s.setI v).drawPort = s.drawPort := rfl
@[simp] theorem State.setI_fresh (v : Word) : (s.setI v).fresh = s.fresh := rfl

/-! `State.setPc` -/

@[simp] theorem State.setPc_V (v : Word) : (s.setPc v).V = s.V := rfl
@[simp] theorem State.setPc_I (v : Word) : (s.setPc v).I = s.I := rfl
@[simp] theorem State.setPc_pc (v : Word) : (s.setPc v).pc = v := rfl
@[simp] theorem State.setPc_sp (v : Word) : (s.setPc v).sp = s.sp := rfl
@[simp] theorem State.setPc_stack (v : Word) : (s.setPc v).stack = s.stack := rfl
@[simp] theorem State.setPc_DT (v : Word) : (s.setPc v).DT = s.DT := rfl
@[simp] theorem State.setPc_ST (v : Word) : (s.setPc v).ST = s.ST := rfl
@[simp] theorem State.setPc_mem (v : Word) : (s.setPc v).mem = s.mem := rfl
@[simp] theorem State.setPc_disp (v : Word) : (s.setPc v).disp = s.disp := rfl
@[simp] theorem State.setPc_drawNeeded (v : Word) : (s.setPc v).drawNeeded = s.drawNeeded := rfl
@[simp] theorem State.setPc_halted (v : Word) : (s.setPc v).halted = s.halted := rfl
@[simp] theorem State.setPc_cause (v : Word) : (s.setPc v).cause = s.cause := rfl
@[simp] theorem State.setPc_epc (v : Word) : (s.setPc v).epc = s.epc := rfl
@[simp] theorem State.setPc_eop (v : Word) : (s.setPc v).eop = s.eop := rfl
@[simp] theorem State.setPc_report (v : Word) : (s.setPc v).report = s.report := rfl
@[simp] theorem State.setPc_params (v : Word) : (s.setPc v).params = s.params := rfl
@[simp] theorem State.setPc_keysPort (v : Word) : (s.setPc v).keysPort = s.keysPort := rfl
@[simp] theorem State.setPc_drawPort (v : Word) : (s.setPc v).drawPort = s.drawPort := rfl
@[simp] theorem State.setPc_fresh (v : Word) : (s.setPc v).fresh = s.fresh := rfl

/-! `State.setDT` -/

@[simp] theorem State.setDT_V (v : Byte) : (s.setDT v).V = s.V := rfl
@[simp] theorem State.setDT_I (v : Byte) : (s.setDT v).I = s.I := rfl
@[simp] theorem State.setDT_pc (v : Byte) : (s.setDT v).pc = s.pc := rfl
@[simp] theorem State.setDT_sp (v : Byte) : (s.setDT v).sp = s.sp := rfl
@[simp] theorem State.setDT_stack (v : Byte) : (s.setDT v).stack = s.stack := rfl
@[simp] theorem State.setDT_DT (v : Byte) : (s.setDT v).DT = v := rfl
@[simp] theorem State.setDT_ST (v : Byte) : (s.setDT v).ST = s.ST := rfl
@[simp] theorem State.setDT_mem (v : Byte) : (s.setDT v).mem = s.mem := rfl
@[simp] theorem State.setDT_disp (v : Byte) : (s.setDT v).disp = s.disp := rfl
@[simp] theorem State.setDT_drawNeeded (v : Byte) : (s.setDT v).drawNeeded = s.drawNeeded := rfl
@[simp] theorem State.setDT_halted (v : Byte) : (s.setDT v).halted = s.halted := rfl
@[simp] theorem State.setDT_cause (v : Byte) : (s.setDT v).cause = s.cause := rfl
@[simp] theorem State.setDT_epc (v : Byte) : (s.setDT v).epc = s.epc := rfl
@[simp] theorem State.setDT_eop (v : Byte) : (s.setDT v).eop = s.eop := rfl
@[simp] theorem State.setDT_report (v : Byte) : (s.setDT v).report = s.report := rfl
@[simp] theorem State.setDT_params (v : Byte) : (s.setDT v).params = s.params := rfl
@[simp] theorem State.setDT_keysPort (v : Byte) : (s.setDT v).keysPort = s.keysPort := rfl
@[simp] theorem State.setDT_drawPort (v : Byte) : (s.setDT v).drawPort = s.drawPort := rfl
@[simp] theorem State.setDT_fresh (v : Byte) : (s.setDT v).fresh = s.fresh := rfl

/-! `State.setST` -/

@[simp] theorem State.setST_V (v : Byte) : (s.setST v).V = s.V := rfl
@[simp] theorem State.setST_I (v : Byte) : (s.setST v).I = s.I := rfl
@[simp] theorem State.setST_pc (v : Byte) : (s.setST v).pc = s.pc := rfl
@[simp] theorem State.setST_sp (v : Byte) : (s.setST v).sp = s.sp := rfl
@[simp] theorem State.setST_stack (v : Byte) : (s.setST v).stack = s.stack := rfl
@[simp] theorem State.setST_DT (v : Byte) : (s.setST v).DT = s.DT := rfl
@[simp] theorem State.setST_ST (v : Byte) : (s.setST v).ST = v := rfl
@[simp] theorem State.setST_mem (v : Byte) : (s.setST v).mem = s.mem := rfl
@[simp] theorem State.setST_disp (v : Byte) : (s.setST v).disp = s.disp := rfl
@[simp] theorem State.setST_drawNeeded (v : Byte) : (s.setST v).drawNeeded = s.drawNeeded := rfl
@[simp] theorem State.setST_halted (v : Byte) : (s.setST v).halted = s.halted := rfl
@[simp] theorem State.setST_cause (v : Byte) : (s.setST v).cause = s.cause := rfl
@[simp] theorem State.setST_epc (v : Byte) : (s.setST v).epc = s.epc := rfl
@[simp] theorem State.setST_eop (v : Byte) : (s.setST v).eop = s.eop := rfl
@[simp] theorem State.setST_report (v : Byte) : (s.setST v).report = s.report := rfl
@[simp] theorem State.setST_params (v : Byte) : (s.setST v).params = s.params := rfl
@[simp] theorem State.setST_keysPort (v : Byte) : (s.setST v).keysPort = s.keysPort := rfl
@[simp] theorem State.setST_drawPort (v : Byte) : (s.setST v).drawPort = s.drawPort := rfl
@[simp] theorem State.setST_fresh (v : Byte) : (s.setST v).fresh = s.fresh := rfl

/-! `State.setDisplay` -/

@[simp] theorem State.setDisplay_V (d : Display) : (s.setDisplay d).V = s.V := rfl
@[simp] theorem State.setDisplay_I (d : Display) : (s.setDisplay d).I = s.I := rfl
@[simp] theorem State.setDisplay_pc (d : Display) : (s.setDisplay d).pc = s.pc := rfl
@[simp] theorem State.setDisplay_sp (d : Display) : (s.setDisplay d).sp = s.sp := rfl
@[simp] theorem State.setDisplay_stack (d : Display) : (s.setDisplay d).stack = s.stack := rfl
@[simp] theorem State.setDisplay_DT (d : Display) : (s.setDisplay d).DT = s.DT := rfl
@[simp] theorem State.setDisplay_ST (d : Display) : (s.setDisplay d).ST = s.ST := rfl
@[simp] theorem State.setDisplay_mem (d : Display) : (s.setDisplay d).mem = s.mem := rfl
@[simp] theorem State.setDisplay_disp (d : Display) : (s.setDisplay d).disp = d := rfl
@[simp] theorem State.setDisplay_drawNeeded (d : Display) : (s.setDisplay d).drawNeeded = s.drawNeeded := rfl
@[simp] theorem State.setDisplay_halted (d : Display) : (s.setDisplay d).halted = s.halted := rfl
@[simp] theorem State.setDisplay_cause (d : Display) : (s.setDisplay d).cause = s.cause := rfl
@[simp] theorem State.setDisplay_epc (d : Display) : (s.setDisplay d).epc = s.epc := rfl
@[simp] theorem State.setDisplay_eop (d : Display) : (s.setDisplay d).eop = s.eop := rfl
@[simp] theorem State.setDisplay_report (d : Display) : (s.setDisplay d).report = s.report := rfl
@[simp] theorem State.setDisplay_params (d : Display) : (s.setDisplay d).params = s.params := rfl
@[simp] theorem State.setDisplay_keysPort (d : Display) : (s.setDisplay d).keysPort = s.keysPort := rfl
@[simp] theorem State.setDisplay_drawPort (d : Display) : (s.setDisplay d).drawPort = s.drawPort := rfl
@[simp] theorem State.setDisplay_fresh (d : Display) : (s.setDisplay d).fresh = s.fresh := rfl

/-! `State.setDrawNeeded` -/

@[simp] theorem State.setDrawNeeded_V (b : Bool) : (s.setDrawNeeded b).V = s.V := rfl
@[simp] theorem State.setDrawNeeded_I (b : Bool) : (s.setDrawNeeded b).I = s.I := rfl
@[simp] theorem State.setDrawNeeded_pc (b : Bool) : (s.setDrawNeeded b).pc = s.pc := rfl
@[simp] theorem State.setDrawNeeded_sp (b : Bool) : (s.setDrawNeeded b).sp = s.sp := rfl
@[simp] theorem State.setDrawNeeded_stack (b : Bool) : (s.setDrawNeeded b).stack = s.stack := rfl
@[simp] theorem State.setDrawNeeded_DT (b : Bool) : (s.setDrawNeeded b).DT = s.DT := rfl
@[simp] theorem State.setDrawNeeded_ST (b : Bool) : (s.setDrawNeeded b).ST = s.ST := rfl
@[simp] theorem State.setDrawNeeded_mem (b : Bool) : (s.setDrawNeeded b).mem = s.mem := rfl
@[simp] theorem State.setDrawNeeded_disp (b : Bool) : (s.setDrawNeeded b).disp = s.disp := rfl
@[simp] theorem State.setDrawNeeded_drawNeeded (b : Bool) : (s.setDrawNeeded b).drawNeeded = b := rfl
@[simp] theorem State.setDrawNeeded_halted (b : Bool) : (s.setDrawNeeded b).halted = s.halted := rfl
@[simp] theorem State.setDrawNeeded_cause (b : Bool) : (s.setDrawNeeded b).cause = s.cause := rfl
@[simp] theorem State.setDrawNeeded_epc (b : Bool) : (s.setDrawNeeded b).epc = s.epc := rfl
@[simp] theorem State.setDrawNeeded_eop (b : Bool) : (s.setDrawNeeded b).eop = s.eop := rfl
@[simp] theorem State.setDrawNeeded_report (b : Bool) : (s.setDrawNeeded b).report = s.report := rfl
@[simp] theorem State.setDrawNeeded_params (b : Bool) : (s.setDrawNeeded b).params = s.params := rfl
@[simp] theorem State.setDrawNeeded_keysPort (b : Bool) : (s.setDrawNeeded b).keysPort = s.keysPort := rfl
@[simp] theorem State.setDrawNeeded_drawPort (b : Bool) : (s.setDrawNeeded b).drawPort = s.drawPort := rfl
@[simp] theorem State.setDrawNeeded_fresh (b : Bool) : (s.setDrawNeeded b).fresh = s.fresh := rfl

/-! `State.recordError` -/

@[simp] theorem State.recordError_V (r : Report) : (s.recordError r).V = s.V := rfl
@[simp] theorem State.recordError_I (r : Report) : (s.recordError r).I = s.I := rfl
@[simp] theorem State.recordError_pc (r : Report) : (s.recordError r).pc = s.pc := rfl
@[simp] theorem State.recordError_sp (r : Report) : (s.recordError r).sp = s.sp := rfl
@[simp] theorem State.recordError_stack (r : Report) : (s.recordError r).stack = s.stack := rfl
@[simp] theorem State.recordError_DT (r : Report) : (s.recordError r).DT = s.DT := rfl
@[simp] theorem State.recordError_ST (r : Report) : (s.recordError r).ST = s.ST := rfl
@[simp] theorem State.recordError_mem (r : Report) : (s.recordError r).mem = s.mem := rfl
@[simp] theorem State.recordError_disp (r : Report) : (s.recordError r).disp = s.disp := rfl
@[simp] theorem State.recordError_drawNeeded (r : Report) : (s.recordError r).drawNeeded = s.drawNeeded := rfl
@[simp] theorem State.recordError_halted (r : Report) : (s.recordError r).halted = s.halted := rfl
@[simp] theorem State.recordError_cause (r : Report) : (s.recordError r).cause = causeCode r := rfl
@[simp] theorem State.recordError_epc (r : Report) : (s.recordError r).epc = s.pc := rfl
@[simp] theorem State.recordError_eop (r : Report) : (s.recordError r).eop = s.fetch := rfl
@[simp] theorem State.recordError_report (r : Report) : (s.recordError r).report = r := rfl
@[simp] theorem State.recordError_params (r : Report) : (s.recordError r).params = s.params := rfl
@[simp] theorem State.recordError_keysPort (r : Report) : (s.recordError r).keysPort = s.keysPort := rfl
@[simp] theorem State.recordError_drawPort (r : Report) : (s.recordError r).drawPort = s.drawPort := rfl
@[simp] theorem State.recordError_fresh (r : Report) : (s.recordError r).fresh = s.fresh := rfl

/-! `State.halt` -/

@[simp] theorem State.halt_V : (s.halt).V = s.V := rfl
@[simp] theorem State.halt_I : (s.halt).I = s.I := rfl
@[simp] theorem State.halt_pc : (s.halt).pc = s.pc := rfl
@[simp] theorem State.halt_sp : (s.halt).sp = s.sp := rfl
@[simp] theorem State.halt_stack : (s.halt).stack = s.stack := rfl
@[simp] theorem State.halt_DT : (s.halt).DT = s.DT := rfl
@[simp] theorem State.halt_ST : (s.halt).ST = s.ST := rfl
@[simp] theorem State.halt_mem : (s.halt).mem = s.mem := rfl
@[simp] theorem State.halt_disp : (s.halt).disp = s.disp := rfl
@[simp] theorem State.halt_drawNeeded : (s.halt).drawNeeded = s.drawNeeded := rfl
@[simp] theorem State.halt_halted : (s.halt).halted = true := rfl
@[simp] theorem State.halt_cause : (s.halt).cause = s.cause := rfl
@[simp] theorem State.halt_epc : (s.halt).epc = s.epc := rfl
@[simp] theorem State.halt_eop : (s.halt).eop = s.eop := rfl
@[simp] theorem State.halt_report : (s.halt).report = s.report := rfl
@[simp] theorem State.halt_params : (s.halt).params = s.params := rfl
@[simp] theorem State.halt_keysPort : (s.halt).keysPort = s.keysPort := rfl
@[simp] theorem State.halt_drawPort : (s.halt).drawPort = s.drawPort := rfl
@[simp] theorem State.halt_fresh : (s.halt).fresh = s.fresh := rfl

/-! `State.consumeInputs` -/

@[simp] theorem State.consumeInputs_V : (s.consumeInputs).V = s.V := rfl
@[simp] theorem State.consumeInputs_I : (s.consumeInputs).I = s.I := rfl
@[simp] theorem State.consumeInputs_pc : (s.consumeInputs).pc = s.pc := rfl
@[simp] theorem State.consumeInputs_sp : (s.consumeInputs).sp = s.sp := rfl
@[simp] theorem State.consumeInputs_stack : (s.consumeInputs).stack = s.stack := rfl
@[simp] theorem State.consumeInputs_DT : (s.consumeInputs).DT = s.DT := rfl
@[simp] theorem State.consumeInputs_ST : (s.consumeInputs).ST = s.ST := rfl
@[simp] theorem State.consumeInputs_mem : (s.consumeInputs).mem = s.mem := rfl
@[simp] theorem State.consumeInputs_disp : (s.consumeInputs).disp = s.disp := rfl
@[simp] theorem State.consumeInputs_drawNeeded : (s.consumeInputs).drawNeeded = s.drawNeeded := rfl
@[simp] theorem State.consumeInputs_halted : (s.consumeInputs).halted = s.halted := rfl
@[simp] theorem State.consumeInputs_cause : (s.consumeInputs).cause = s.cause := rfl
@[simp] theorem State.consumeInputs_epc : (s.consumeInputs).epc = s.epc := rfl
@[simp] theorem State.consumeInputs_eop : (s.consumeInputs).eop = s.eop := rfl
@[simp] theorem State.consumeInputs_report : (s.consumeInputs).report = s.report := rfl
@[simp] theorem State.consumeInputs_params : (s.consumeInputs).params = s.params := rfl
@[simp] theorem State.consumeInputs_keysPort : (s.consumeInputs).keysPort = none := rfl
@[simp] theorem State.consumeInputs_drawPort : (s.consumeInputs).drawPort = none := rfl
@[simp] theorem State.consumeInputs_fresh : (s.consumeInputs).fresh = s.fresh + 1 := rfl

/-! `State.withInputs` -/

@[simp] theorem State.withInputs_V (k : Keys) (r : RandomDraw) : (s.withInputs k r).V = s.V := rfl
@[simp] theorem State.withInputs_I (k : Keys) (r : RandomDraw) : (s.withInputs k r).I = s.I := rfl
@[simp] theorem State.withInputs_pc (k : Keys) (r : RandomDraw) : (s.withInputs k r).pc = s.pc := rfl
@[simp] theorem State.withInputs_sp (k : Keys) (r : RandomDraw) : (s.withInputs k r).sp = s.sp := rfl
@[simp] theorem State.withInputs_stack (k : Keys) (r : RandomDraw) : (s.withInputs k r).stack = s.stack := rfl
@[simp] theorem State.withInputs_DT (k : Keys) (r : RandomDraw) : (s.withInputs k r).DT = s.DT := rfl
@[simp] theorem State.withInputs_ST (k : Keys) (r : RandomDraw) : (s.withInputs k r).ST = s.ST := rfl
@[simp] theorem State.withInputs_mem (k : Keys) (r : RandomDraw) : (s.withInputs k r).mem = s.mem := rfl
@[simp] theorem State.withInputs_disp (k : Keys) (r : RandomDraw) : (s.withInputs k r).disp = s.disp := rfl
@[simp] theorem State.withInputs_drawNeeded (k : Keys) (r : RandomDraw) : (s.withInputs k r).drawNeeded = s.drawNeeded := rfl
@[simp] theorem State.withInputs_halted (k : Keys) (r : RandomDraw) : (s.withInputs k r).halted = s.halted := rfl
@[simp] theorem State.withInputs_cause (k : Keys) (r : RandomDraw) : (s.withInputs k r).cause = s.cause := rfl
@[simp] theorem State.withInputs_epc (k : Keys) (r : RandomDraw) : (s.withInputs k r).epc = s.epc := rfl
@[simp] theorem State.withInputs_eop (k : Keys) (r : RandomDraw) : (s.withInputs k r).eop = s.eop := rfl
@[simp] theorem State.withInputs_report (k : Keys) (r : RandomDraw) : (s.withInputs k r).report = s.report := rfl
@[simp] theorem State.withInputs_params (k : Keys) (r : RandomDraw) : (s.withInputs k r).params = s.params := rfl
@[simp] theorem State.withInputs_keysPort (k : Keys) (r : RandomDraw) : (s.withInputs k r).keysPort = some k := rfl
@[simp] theorem State.withInputs_drawPort (k : Keys) (r : RandomDraw) : (s.withInputs k r).drawPort = some r := rfl
@[simp] theorem State.withInputs_fresh (k : Keys) (r : RandomDraw) : (s.withInputs k r).fresh = s.fresh := rfl

/-! `State.keyChange` -/

@[simp] theorem State.keyChange_V (k : Keys) : (s.keyChange k).V = s.V := rfl
@[simp] theorem State.keyChange_I (k : Keys) : (s.keyChange k).I = s.I := rfl
@[simp] theorem State.keyChange_pc (k : Keys) : (s.keyChange k).pc = s.pc := rfl
@[simp] theorem State.keyChange_sp (k : Keys) : (s.keyChange k).sp = s.sp := rfl
@[simp] theorem State.keyChange_stack (k : Keys) : (s.keyChange k).stack = s.stack := rfl
@[simp] theorem State.keyChange_DT (k : Keys) : (s.keyChange k).DT = s.DT := rfl
@[simp] theorem State.keyChange_ST (k : Keys) : (s.keyChange k).ST = s.ST := rfl
@[simp] theorem State.keyChange_mem (k : Keys) : (s.keyChange k).mem = s.mem := rfl
@[simp] theorem State.keyChange_disp (k : Keys) : (s.keyChange k).disp = s.disp := rfl
@[simp] theorem State.keyChange_drawNeeded (k : Keys) : (s.keyChange k).drawNeeded = s.drawNeeded := rfl
@[simp] theorem State.keyChange_halted (k : Keys) : (s.keyChange k).halted = s.halted := rfl
@[simp] theorem State.keyChange_cause (k : Keys) : (s.keyChange k).cause = s.cause := rfl
@[simp] theorem State.keyChange_epc (k : Keys) : (s.keyChange k).epc = s.epc := rfl
@[simp] theorem State.keyChange_eop (k : Keys) : (s.keyChange k).eop = s.eop := rfl
@[simp] theorem State.keyChange_report (k : Keys) : (s.keyChange k).report = s.report := rfl
@[simp] theorem State.keyChange_params (k : Keys) : (s.keyChange k).params = s.params := rfl
@[simp] theorem State.keyChange_keysPort (k : Keys) : (s.keyChange k).keysPort = some k := rfl
@[simp] theorem State.keyChange_drawPort (k : Keys) : (s.keyChange k).drawPort = s.drawPort := rfl
@[simp] theorem State.keyChange_fresh (k : Keys) : (s.keyChange k).fresh = s.fresh := rfl

/-! `State.drawAck` -/

@[simp] theorem State.drawAck_V : (s.drawAck).V = s.V := rfl
@[simp] theorem State.drawAck_I : (s.drawAck).I = s.I := rfl
@[simp] theorem State.drawAck_pc : (s.drawAck).pc = s.pc := rfl
@[simp] theorem State.drawAck_sp : (s.drawAck).sp = s.sp := rfl
@[simp] theorem State.drawAck_stack : (s.drawAck).stack = s.stack := rfl
@[simp] theorem State.drawAck_DT : (s.drawAck).DT = s.DT := rfl
@[simp] theorem State.drawAck_ST : (s.drawAck).ST = s.ST := rfl
@[simp] theorem State.drawAck_mem : (s.drawAck).mem = s.mem := rfl
@[simp] theorem State.drawAck_disp : (s.drawAck).disp = s.disp := rfl
@[simp] theorem State.drawAck_drawNeeded : (s.drawAck).drawNeeded = false := rfl
@[simp] theorem State.drawAck_halted : (s.drawAck).halted = s.halted := rfl
@[simp] theorem State.drawAck_cause : (s.drawAck).cause = s.cause := rfl
@[simp] theorem State.drawAck_epc : (s.drawAck).epc = s.epc := rfl
@[simp] theorem State.drawAck_eop : (s.drawAck).eop = s.eop := rfl
@[simp] theorem State.drawAck_report : (s.drawAck).report = s.report := rfl
@[simp] theorem State.drawAck_params : (s.drawAck).params = s.params := rfl
@[simp] theorem State.drawAck_keysPort : (s.drawAck).keysPort = s.keysPort := rfl
@[simp] theorem State.drawAck_drawPort : (s.drawAck).drawPort = s.drawPort := rfl
@[simp] theorem State.drawAck_fresh : (s.drawAck).fresh = s.fresh := rfl

/-! `State.tick` -/

@[simp] theorem State.tick_V : (s.tick).V = s.V := rfl
@[simp] theorem State.tick_I : (s.tick).I = s.I := rfl
@[simp] theorem State.tick_pc : (s.tick).pc = s.pc := rfl
@[simp] theorem State.tick_sp : (s.tick).sp = s.sp := rfl
@[simp] theorem State.tick_stack : (s.tick).stack = s.stack := rfl
@[simp] theorem State.tick_DT : (s.tick).DT = countDown s.DT := rfl
@[simp] theorem State.tick_ST : (s.tick).ST = countDown s.ST := rfl
@[simp] theorem State.tick_mem : (s.tick).mem = s.mem := rfl
@[simp] theorem State.tick_disp : (s.tick).disp = s.disp := rfl
@[simp] theorem State.tick_drawNeeded : (s.tick).drawNeeded = s.drawNeeded := rfl
@[simp] theorem State.tick_halted : (s.tick).halted = s.halted := rfl
@[simp] theorem State.tick_cause : (s.tick).cause = s.cause := rfl
@[simp] theorem State.tick_epc : (s.tick).epc = s.epc := rfl
@[simp] theorem State.tick_eop : (s.tick).eop = s.eop := rfl
@[simp] theorem State.tick_report : (s.tick).report = s.report := rfl
@[simp] theorem State.tick_params : (s.tick).params = s.params := rfl
@[simp] theorem State.tick_keysPort : (s.tick).keysPort = s.keysPort := rfl
@[simp] theorem State.tick_drawPort : (s.tick).drawPort = s.drawPort := rfl
@[simp] theorem State.tick_fresh : (s.tick).fresh = s.fresh := rfl

/-! `reportHalted` -/

@[simp] theorem reportHalted_V : (reportHalted s).V = s.V := rfl
@[simp] theorem reportHalted_I : (reportHalted s).I = s.I := rfl
@[simp] theorem reportHalted_pc : (reportHalted s).pc = s.pc := rfl
@[simp] theorem reportHalted_sp : (reportHalted s).sp = s.sp := rfl
@[simp] theorem reportHalted_stack : (reportHalted s).stack = s.stack := rfl
@[simp] theorem reportHalted_DT : (reportHalted s).DT = s.DT := rfl
@[simp] theorem reportHalted_ST : (reportHalted s).ST = s.ST := rfl
@[simp] theorem reportHalted_mem : (reportHalted s).mem = s.mem := rfl
@[simp] theorem reportHalted_disp : (reportHalted s).disp = s.disp := rfl
@[simp] theorem reportHalted_drawNeeded : (reportHalted s).drawNeeded = s.drawNeeded := rfl
@[simp] theorem reportHalted_halted : (reportHalted s).halted = s.halted := rfl
@[simp] theorem reportHalted_cause : (reportHalted s).cause = s.cause := rfl
@[simp] theorem reportHalted_epc : (reportHalted s).epc = s.epc := rfl
@[simp] theorem reportHalted_eop : (reportHalted s).eop = s.eop := rfl
@[simp] theorem reportHalted_report : (reportHalted s).report = .halted := rfl
@[simp] theorem reportHalted_params : (reportHalted s).params = s.params := rfl
@[simp] theorem reportHalted_keysPort : (reportHalted s).keysPort = s.keysPort := rfl
@[simp] theorem reportHalted_drawPort : (reportHalted s).drawPort = s.drawPort := rfl
@[simp] theorem reportHalted_fresh : (reportHalted s).fresh = s.fresh := rfl

/-! `State.storeBytes` -/

@[simp] theorem State.storeBytes_V (addr : Nat) (bs : List Byte) : (s.storeBytes addr bs).V = s.V := rfl
@[simp] theorem State.storeBytes_I (addr : Nat) (bs : List Byte) : (s.storeBytes addr bs).I = s.I := rfl
@[simp] theorem State.storeBytes_pc (addr : Nat) (bs : List Byte) : (s.storeBytes addr bs).pc = s.pc := rfl
@[simp] theorem State.storeBytes_sp (addr : Nat) (bs : List Byte) : (s.storeBytes addr bs).sp = s.sp := rfl
@[simp] theorem State.storeBytes_stack (addr : Nat) (bs : List Byte) : (s.storeBytes addr bs).stack = s.stack := rfl
@[simp] theorem State.storeBytes_DT (addr : Nat) (bs : List Byte) : (s.storeBytes addr bs).DT = s.DT := rfl
@[simp] theorem State.storeBytes_ST (addr : Nat) (bs : List Byte) : (s.storeBytes addr bs).ST = s.ST := rfl
@[simp] theorem State.storeBytes_mem (addr : Nat) (bs : List Byte) : (s.storeBytes addr bs).mem = Memory.store s.params.glyphTable s.mem addr bs := rfl
@[simp] theorem State.storeBytes_disp (addr : Nat) (bs : List Byte) : (s.storeBytes addr bs).disp = s.disp := rfl
@[simp] theorem State.storeBytes_drawNeeded (addr : Nat) (bs : List Byte) : (s.storeBytes addr bs).drawNeeded = s.drawNeeded := rfl
@[simp] theorem State.storeBytes_halted (addr : Nat) (bs : List Byte) : (s.storeBytes addr bs).halted = s.halted := rfl
@[simp] theorem State.storeBytes_cause (addr : Nat) (bs : List Byte) : (s.storeBytes addr bs).cause = s.cause := rfl
@[simp] theorem State.storeBytes_epc (addr : Nat) (bs : List Byte) : (s.storeBytes addr bs).epc = s.epc := rfl
@[simp] theorem State.storeBytes_eop (addr : Nat) (bs : List Byte) : (s.storeBytes addr bs).eop = s.eop := rfl
@[simp] theorem State.storeBytes_report (addr : Nat) (bs : List Byte) : (s.storeBytes addr bs).report = s.report := rfl
@[simp] theorem State.storeBytes_params (addr : Nat) (bs : List Byte) : (s.storeBytes addr bs).params = s.params := rfl
@[simp] theorem State.storeBytes_keysPort (addr : Nat) (bs : List Byte) : (s.storeBytes addr bs).keysPort = s.keysPort := rfl
@[simp] theorem State.storeBytes_drawPort (addr : Nat) (bs : List Byte) : (s.storeBytes addr bs).drawPort = s.drawPort := rfl
@[simp] theorem State.storeBytes_fresh (addr : Nat) (bs : List Byte) : (s.storeBytes addr bs).fresh = s.fresh := rfl

end Sys2Proof.Machine
end

