-- ==== Sys2Proof/Laws/Ops.lean ====
section
/-! SUPPORT. One lemma for each shared operation, saying once what it can do. -/

namespace Sys2Proof.Machine

/-! ### Registers -/

theorem State.readReg_writeReg (s : State) (r q : Reg) (v : Byte) :
    (s.writeReg r v).readReg q = if r = q then v else s.readReg q := by
  simp only [State.readReg, State.writeReg, Fin.getElem_fin, Vector.getElem_set, Fin.ext_iff]

/-- A register reads the same in states with the same register file. -/
theorem State.readReg_congr {s t : State} (h : t.V = s.V) (r : Reg) : t.readReg r = s.readReg r := by
  simp only [State.readReg, h]

/-! ### Memory -/

theorem State.memRead_memWrite (s : State) (a b : Nat) (v : Byte) :
    (s.memWrite a v).memRead b = if a % 4096 = b % 4096 then v else s.memRead b := by
  simp only [State.memRead, State.memWrite, Memory.read_write]

/-- Memory reads the same in states with the same memory and the same glyph table. -/
theorem State.memRead_congr {s t : State} (hm : t.mem = s.mem) (hp : t.params = s.params) (a : Nat) :
    t.memRead a = s.memRead a := by
  simp only [State.memRead, hm, hp]

/-- A fetch depends on pc, memory and the glyph table alone. -/
theorem State.fetch_congr {s t : State} (hpc : t.pc = s.pc) (hm : t.mem = s.mem)
    (hp : t.params = s.params) : t.fetch = s.fetch := by
  simp only [State.fetch, hpc, State.memRead_congr hm hp]

theorem State.storeBytes_cons (s : State) (addr : Nat) (b : Byte) (bs : List Byte) :
    s.storeBytes addr (b :: bs) = (s.memWrite addr b).storeBytes (addr + 1) bs := rfl

/-- A store leaves every address alone that is none of its own. -/
theorem State.memRead_storeBytes_other (s : State) (addr b : Nat) (bs : List Byte)
    (h : ∀ k < bs.length, (addr + k) % 4096 ≠ b % 4096) :
    (s.storeBytes addr bs).memRead b = s.memRead b := by
  induction bs generalizing s addr with
  | nil => rfl
  | cons v bs ih =>
    have h0 := h 0 (by simp)
    rw [State.storeBytes_cons, ih, State.memRead_memWrite, if_neg (by simpa using h0)]
    intro k hk
    have := h (k + 1) (by simpa using hk)
    rwa [Nat.add_assoc, Nat.add_comm 1 k]

/-- A store of at most 4096 bytes puts each at its place. -/
theorem State.memRead_storeBytes_at (s : State) (addr k : Nat) (bs : List Byte)
    (hl : bs.length ≤ 4096) (hk : k < bs.length) :
    (s.storeBytes addr bs).memRead (addr + k) = bs[k] := by
  induction bs generalizing s addr k with
  | nil => exact absurd hk (Nat.not_lt_zero _)
  | cons v bs ih =>
    simp only [List.length_cons] at hl hk
    cases k with
    | zero =>
      rw [State.storeBytes_cons, State.memRead_storeBytes_other, State.memRead_memWrite]
      · simp
      · intro j hj; omega
    | succ k =>
      rw [State.storeBytes_cons, show addr + (k + 1) = addr + 1 + k by omega,
        ih _ _ _ (by omega) (by omega)]
      rfl

/-- A store keeps memory in canonical form. -/
theorem Memory.wf_store {g : GlyphTable} {m : Memory} (addr : Nat) (bs : List Byte)
    (h : Memory.wf g m = true) : Memory.wf g (Memory.store g m addr bs) = true := by
  induction bs generalizing m addr with
  | nil => exact h
  | cons v bs ih => exact ih (addr + 1) (Memory.wf_write v (Nat.mod_lt _ (by decide)) h)

/-! ### The call stack -/

/-- Push either finds the stack full or writes the slot at sp and moves sp up (10_state.md R29). -/
theorem State.push_cases (s : State) (v : Word) :
    (s.sp.val = 16 ∧ s.push v = none) ∨
    (∃ h : s.sp.val < 16,
      s.push v = some { s with stack := s.stack.set s.sp.val v, sp := ⟨s.sp.val + 1, by omega⟩ }) := by
  unfold State.push
  split
  · exact .inr ⟨‹_›, rfl⟩
  · exact .inl ⟨by omega, rfl⟩

/-- Pop either finds the stack empty or takes the slot below sp and moves sp down (10_state.md R29). -/
theorem State.pop_cases (s : State) :
    (s.sp.val = 0 ∧ s.pop = none) ∨
    (∃ _ : 0 < s.sp.val,
      s.pop = some (s.stack[s.sp.val - 1], { s with sp := ⟨s.sp.val - 1, by omega⟩ })) := by
  unfold State.pop
  split
  · exact .inr ⟨‹_›, rfl⟩
  · exact .inl ⟨by omega, rfl⟩

/-! ### Outcomes and shapes of instructions -/

theorem complete_next {s t : State} (h : complete s = .next t) : t = { s with report := .ok } := by
  cases h; rfl

theorem raiseFatal_next {r : Report} {s t : State} (h : raiseFatal r s = .next t) :
    t = { s with halted := true, cause := causeCode r, epc := s.pc, eop := s.fetch, report := r } := by
  cases h; rfl

theorem skipIf_next {c : Bool} {s t : State} (h : skipIf c s = .next t) :
    t = { s with pc := if c then s.pc + 4 else s.pc + 2, report := .ok } := by
  cases h; rfl

theorem loadReg_next {x : Reg} {v : Byte} {s t : State} (h : loadReg x v s = .next t) :
    t = { s with V := s.V.set x v, pc := s.pc + 2, report := .ok } := by
  cases h; rfl

theorem loadFlagAndReg_next {x : Reg} {f v : Byte} {s t : State} (h : loadFlagAndReg x f v s = .next t) :
    t = { s with V := (s.V.set regVF f).set x v, pc := s.pc + 2, report := .ok } := by
  cases h; rfl

theorem loadIndex_next {v : Word} {s t : State} (h : loadIndex v s = .next t) :
    t = { s with I := v, pc := s.pc + 2, report := .ok } := by
  cases h; rfl

/-- A decode failure either moves pc on or halts the machine (60_exceptions.md R183). -/
theorem raiseDecodeFailure_cases (s : State) :
    (s.params.unknownOpcode = .advance ∧ raiseDecodeFailure s =
      { s with cause := 1, epc := s.pc, eop := s.fetch, report := .decodeFailure, pc := s.pc + 2 }) ∨
    (s.params.unknownOpcode = .halt ∧ raiseDecodeFailure s =
      { s with cause := 1, epc := s.pc, eop := s.fetch, report := .decodeFailure, halted := true }) := by
  unfold raiseDecodeFailure
  split
  · exact .inl ⟨‹_›, rfl⟩
  · exact .inr ⟨‹_›, rfl⟩

/-! ### Timers -/

theorem countDown_toNat (t : Byte) : (countDown t).toNat = t.toNat - 1 := by
  have := t.isLt
  simp only [countDown, BitVec.toNat_ofNat]
  omega

/-! ### The display -/

theorem toggleCell_getLsbD (d : Display) (k j : Nat) (hk : k < 2048) :
    (toggleCell d k).getLsbD j = (d.getLsbD j ^^ decide (k = j)) := by
  simp only [toggleCell, BitVec.getLsbD_xor, BitVec.getLsbD_twoPow, hk, decide_true, Bool.true_and]

theorem cellIndex_lt (X Y : Byte) (row col : Nat) : cellIndex X Y row col < 2048 :=
  Nat.mod_lt _ (by decide)

/-- One pixel of a sprite: the cell under a 1 bit changes and no other does, and the flag notes whether it
was set (45_draw.md R150). -/
theorem blitPixel_spec (X Y bits : Byte) (row col j : Nat) (acc : Display × Bool) :
    (blitPixel X Y bits row acc col).1.getLsbD j =
      (acc.1.getLsbD j ^^ (spriteBit bits col && decide (cellIndex X Y row col = j))) ∧
    (blitPixel X Y bits row acc col).2 =
      (acc.2 || (spriteBit bits col && acc.1.getLsbD (cellIndex X Y row col))) := by
  unfold blitPixel
  cases spriteBit bits col <;> simp [toggleCell_getLsbD _ _ _ (cellIndex_lt X Y row col)]

end Sys2Proof.Machine
end

