-- ==== Sys2Proof/Laws/PerInstr.lean ====
section
/-! SUPPORT. Statements about every instruction as syntax, one lemma per constructor. -/

namespace Sys2Proof.Laws.TopNibble

open Sys2Proof Sys2Proof.Machine

/-- The word of an instruction has the top nibble of its row in the opcode map (30_encoding.md R71, R78). -/
def Statement (i : Instr) : Prop := topNibble (encode i) = topNibble (opcodeRow i).1

theorem cls : Statement (.cls) :=
  (topNibble_wordXKK _ _ _).trans (show 0x0 = topNibble 0x00E0 by decide)

theorem ret : Statement (.ret) :=
  (topNibble_wordXKK _ _ _).trans (show 0x0 = topNibble 0x00EE by decide)

theorem sys (nnn : BitVec 12) : Statement (.sys nnn) :=
  (topNibble_wordNNN _ _).trans (show 0x0 = topNibble 0x0000 by decide)

theorem jp (nnn : BitVec 12) : Statement (.jp nnn) :=
  (topNibble_wordNNN _ _).trans (show 0x1 = topNibble 0x1000 by decide)

theorem call (nnn : BitVec 12) : Statement (.call nnn) :=
  (topNibble_wordNNN _ _).trans (show 0x2 = topNibble 0x2000 by decide)

theorem seByte (x : Reg) (kk : Byte) : Statement (.seByte x kk) :=
  (topNibble_wordXKK _ _ _).trans (show 0x3 = topNibble 0x3000 by decide)

theorem sneByte (x : Reg) (kk : Byte) : Statement (.sneByte x kk) :=
  (topNibble_wordXKK _ _ _).trans (show 0x4 = topNibble 0x4000 by decide)

theorem ldByte (x : Reg) (kk : Byte) : Statement (.ldByte x kk) :=
  (topNibble_wordXKK _ _ _).trans (show 0x6 = topNibble 0x6000 by decide)

theorem addByte (x : Reg) (kk : Byte) : Statement (.addByte x kk) :=
  (topNibble_wordXKK _ _ _).trans (show 0x7 = topNibble 0x7000 by decide)

theorem ldReg (x y : Reg) : Statement (.ldReg x y) :=
  (topNibble_wordXYN _ _ _ _).trans (show 0x8 = topNibble 0x8000 by decide)

theorem andReg (x y : Reg) : Statement (.andReg x y) :=
  (topNibble_wordXYN _ _ _ _).trans (show 0x8 = topNibble 0x8002 by decide)

theorem addReg (x y : Reg) : Statement (.addReg x y) :=
  (topNibble_wordXYN _ _ _ _).trans (show 0x8 = topNibble 0x8004 by decide)

theorem subReg (x y : Reg) : Statement (.subReg x y) :=
  (topNibble_wordXYN _ _ _ _).trans (show 0x8 = topNibble 0x8005 by decide)

theorem ldI (nnn : BitVec 12) : Statement (.ldI nnn) :=
  (topNibble_wordNNN _ _).trans (show 0xA = topNibble 0xA000 by decide)

theorem jpV0 (nnn : BitVec 12) : Statement (.jpV0 nnn) :=
  (topNibble_wordNNN _ _).trans (show 0xB = topNibble 0xB000 by decide)

theorem rnd (x : Reg) (kk : Byte) : Statement (.rnd x kk) :=
  (topNibble_wordXKK _ _ _).trans (show 0xC = topNibble 0xC000 by decide)

theorem drw (x y : Reg) (n : BitVec 4) : Statement (.drw x y n) :=
  (topNibble_wordXYN _ _ _ _).trans (show 0xD = topNibble 0xD000 by decide)

theorem sknp (x : Reg) : Statement (.sknp x) :=
  (topNibble_wordXKK _ _ _).trans (show 0xE = topNibble 0xE0A1 by decide)

theorem ldFromDT (x : Reg) : Statement (.ldFromDT x) :=
  (topNibble_wordXKK _ _ _).trans (show 0xF = topNibble 0xF007 by decide)

theorem ldDT (x : Reg) : Statement (.ldDT x) :=
  (topNibble_wordXKK _ _ _).trans (show 0xF = topNibble 0xF015 by decide)

theorem ldST (x : Reg) : Statement (.ldST x) :=
  (topNibble_wordXKK _ _ _).trans (show 0xF = topNibble 0xF018 by decide)

theorem addI (x : Reg) : Statement (.addI x) :=
  (topNibble_wordXKK _ _ _).trans (show 0xF = topNibble 0xF01E by decide)

theorem ldF (x : Reg) : Statement (.ldF x) :=
  (topNibble_wordXKK _ _ _).trans (show 0xF = topNibble 0xF029 by decide)

theorem ldB (x : Reg) : Statement (.ldB x) :=
  (topNibble_wordXKK _ _ _).trans (show 0xF = topNibble 0xF033 by decide)

theorem ldMem (x : Reg) : Statement (.ldMem x) :=
  (topNibble_wordXKK _ _ _).trans (show 0xF = topNibble 0xF055 by decide)

end Sys2Proof.Laws.TopNibble
end

