-- ==== Sys2Proof/Laws/Step.lean ====
section
/-! SUPPORT. What one step can do, said once (30_encoding.md rule R75), and what each meaning leaves. -/

namespace Sys2Proof.Machine

/-! ### The step -/

/-- A step is one of three things: the report of a halted machine, a decode failure, or an instruction. -/
theorem step_cases (s : State) :
    (s.halted = true ∧ step s = .next (reportHalted s).consumeInputs) ∨
    (s.halted = false ∧ decode s.fetch = .error (.unknownOpcode s.fetch) ∧
      step s = .next (raiseDecodeFailure s).consumeInputs) ∨
    (∃ i, s.halted = false ∧ decode s.fetch = .ok i ∧ step s = afterExec (exec i s)) := by
  unfold step
  cases hh : s.halted with
  | true => exact .inl ⟨rfl, rfl⟩
  | false =>
    refine .inr ?_
    cases hd : decode s.fetch with
    | error r => exact .inl ⟨rfl, by rw [decode_error hd], by simp⟩
    | ok i => exact .inr ⟨i, rfl, rfl, by simp⟩

theorem afterExec_next {r : Result} {t : State} (h : afterExec r = .next t) :
    ∃ u, r = .next u ∧ t = u.consumeInputs := by
  cases r with
  | next u => cases h; exact ⟨u, rfl, rfl⟩
  | fault f => cases h
  | refused r => cases h

/-- A placed word is what the machine fetches next. -/
theorem State.fetch_placeWord (s : State) (w : Word) : (s.placeWord w).fetch = w := by
  have h0 := s.memRead_storeBytes_at s.pc.toNat 0 [highByte w, lowByte w] (by simp) (by simp)
  have h1 := s.memRead_storeBytes_at s.pc.toNat 1 [highByte w, lowByte w] (by simp) (by simp)
  have e : (s.placeWord w).fetch = wordOfBytes
      ((s.storeBytes s.pc.toNat [highByte w, lowByte w]).memRead (s.pc.toNat + 0))
      ((s.storeBytes s.pc.toNat [highByte w, lowByte w]).memRead (s.pc.toNat + 1)) := rfl
  rw [e, h0, h1]
  exact wordOfBytes_bytes w

/-- Placing a word changes memory and clears `halted`, and nothing else. -/
theorem State.placeWord_eq (s : State) (w : Word) :
    s.placeWord w = { s with mem := (s.placeWord w).mem, halted := false } := rfl

/-! ### The meanings with an error outcome -/

/-- RET completes or raises StackUnderflow (40_control_system.md R102). -/
theorem execRet_cases (s : State) :
    (s.sp.val = 0 ∧ execRet s = raiseFatal .stackUnderflow s) ∨
    (∃ _ : 0 < s.sp.val, execRet s = .next
      { s with sp := ⟨s.sp.val - 1, by omega⟩, pc := s.stack[s.sp.val - 1], report := .ok }) := by
  unfold execRet
  rcases s.pop_cases with ⟨h, e⟩ | ⟨h, e⟩ <;> rw [e]
  · exact .inl ⟨h, rfl⟩
  · exact .inr ⟨h, rfl⟩

/-- CALL completes or raises StackOverflow (40_control_system.md R104). -/
theorem execCall_cases (nnn : BitVec 12) (s : State) :
    (s.sp.val = 16 ∧ execCall nnn s = raiseFatal .stackOverflow s) ∨
    (∃ h : s.sp.val < 16, execCall nnn s = .next
      { s with stack := s.stack.set s.sp.val s.nextPc, sp := ⟨s.sp.val + 1, by omega⟩, pc := zext16 nnn,
               report := .ok }) := by
  unfold execCall
  rcases s.push_cases s.nextPc with ⟨h, e⟩ | ⟨h, e⟩ <;> rw [e]
  · exact .inl ⟨h, rfl⟩
  · exact .inr ⟨h, rfl⟩

/-- SKNP completes or raises KeyIndexOutOfRange (41_skip.md R112). -/
theorem execSknp_cases (x : Reg) (s : State) :
    (15 < (s.readReg x).toNat ∧ execSknp x s = raiseFatal .keyIndexOutOfRange s) ∨
    (∃ _ : (s.readReg x).toNat < 16, execSknp x s = skipIf (!(s.keys[(s.readReg x).toNat])) s) := by
  unfold execSknp
  split
  · exact .inr ⟨‹_›, rfl⟩
  · exact .inl ⟨by omega, rfl⟩

/-- Everything an instruction can do, for a proof about all of them: it answers a next state, by its own
meaning, and only RET, CALL and SKNP have a second way to end (60_exceptions.md R182). -/
theorem exec_induction (P : Instr → State → State → Prop)
    (ret : ∀ s, ∀ _ : 0 < s.sp.val,
      P .ret s { s with sp := ⟨s.sp.val - 1, by omega⟩, pc := s.stack[s.sp.val - 1], report := .ok })
    (retError : ∀ s, s.sp.val = 0 → P .ret s (s.recordError .stackUnderflow).halt)
    (call : ∀ nnn s, ∀ _ : s.sp.val < 16,
      P (.call nnn) s { s with stack := s.stack.set s.sp.val s.nextPc, sp := ⟨s.sp.val + 1, by omega⟩,
                               pc := zext16 nnn, report := .ok })
    (callError : ∀ nnn s, s.sp.val = 16 → P (.call nnn) s (s.recordError .stackOverflow).halt)
    (sknp : ∀ x s, ∀ _ : (s.readReg x).toNat < 16,
      P (.sknp x) s { s with pc := if !(s.keys[(s.readReg x).toNat]) then s.skipPc else s.nextPc,
                             report := .ok })
    (sknpError : ∀ x s, 15 < (s.readReg x).toNat →
      P (.sknp x) s (s.recordError .keyIndexOutOfRange).halt)
    (rest : ∀ i s t, exec i s = .next t → i ≠ .ret → (∀ nnn, i ≠ .call nnn) → (∀ x, i ≠ .sknp x) →
      P i s t)
    (i : Instr) (s t : State) (h : exec i s = .next t) : P i s t := by
  by_cases hr : i = .ret
  · subst hr
    rcases execRet_cases s with ⟨h1, e⟩ | ⟨h1, e⟩
    · cases e.symm.trans h; exact retError s h1
    · cases e.symm.trans h; exact ret s h1
  by_cases hc : ∃ nnn, i = .call nnn
  · obtain ⟨nnn, rfl⟩ := hc
    rcases execCall_cases nnn s with ⟨h1, e⟩ | ⟨h1, e⟩
    · cases e.symm.trans h; exact callError nnn s h1
    · cases e.symm.trans h; exact call nnn s h1
  by_cases hk : ∃ x, i = .sknp x
  · obtain ⟨x, rfl⟩ := hk
    rcases execSknp_cases x s with ⟨h1, e⟩ | ⟨h1, e⟩
    · cases e.symm.trans h; exact sknpError x s h1
    · cases e.symm.trans h; exact sknp x s h1
  · exact rest i s t h hr (fun nnn e => hc ⟨nnn, e⟩) (fun x e => hk ⟨x, e⟩)

/-! ### The meanings that write one part of the state -/

theorem execLdB_next {x : Reg} {s t : State} (h : execLdB x s = .next t) :
    t = { s with mem := Memory.store s.params.glyphTable s.mem s.dataBase (bcdDigits (s.readReg x)), pc := s.pc + 2,
                 report := .ok } := by
  cases h; rfl

theorem execLdMem_next {x : Reg} {s t : State} (h : execLdMem x s = .next t) :
    t = { s with mem := Memory.store s.params.glyphTable s.mem s.dataBase (s.regBlock x), I := s.indexAfterStore x,
                 pc := s.pc + 2, report := .ok } := by
  cases h; rfl

theorem execDrw_next {x y : Reg} {n : BitVec 4} {s t : State} (h : execDrw x y n s = .next t) :
    t = { s with disp := (s.blitSprite x y n).1, V := s.V.set regVF (flagByte (s.blitSprite x y n).2),
                 drawNeeded := true, pc := s.pc + 2, report := .ok } := by
  cases h; rfl

end Sys2Proof.Machine
end

