-- ==== Sys2Proof/Tests/Slice0.lean ====
section
/-! SUPPORT. The model's own tests, their expected results from 95_test_vectors.md, and the witnesses: for
each statement with hypotheses, a concrete state and operands that meet them. -/

namespace Sys2Proof.Tests

open Sys2Proof.Machine

/-! ### Helpers -/

/-- The state that an outcome goes on in. -/
def nextOf : Result → Option State
  | .next t => some t
  | .fault _ => none
  | .refused _ => none

/-- The machine after reset with some registers set. -/
def withRegs (rs : List (Reg × Byte)) : State := rs.foldl (fun s p => s.writeReg p.1 p.2) State.reset

/-- The state after one step at the word `w`. -/
def run (s : State) (w : Nat) : Option State := nextOf (step (s.withFetchWord 16 w))

/-- No key held. -/
def noKeys : Keys := Vector.replicate 16 false

/-- Every key held. -/
def allKeys : Keys := Vector.replicate 16 true

/-! ### Well-formedness: the one check, and what it refuses -/

/-- 40_control_system.md R100: the word of SYS 0xAE0 is a CLS. -/
theorem test_wf_refuses_sys_cls : WellFormed (.sys 0xAE0) = false := by decide

/-- 40_control_system.md R100: the word of SYS 0xFEE is a RET. -/
theorem test_wf_refuses_sys_ret : WellFormed (.sys 0xFEE) = false := by decide

theorem test_wf_accepts_sys : WellFormed (.sys 0x0E1) = true := by decide

/-! ### Decoding: words of 95_test_vectors.md 2.1, as the opcode table numbers their bits -/

theorem test_decode_control :
    decodeTableWord 16 0x00E0 = some .cls ∧ decodeTableWord 16 0x0AE0 = some .cls ∧
    decodeTableWord 16 0x00EE = some .ret ∧ decodeTableWord 16 0x0FEE = some .ret ∧
    decodeTableWord 16 0x0000 = some (.sys 0x000) ∧ decodeTableWord 16 0x00E1 = some (.sys 0x0E1) ∧
    decodeTableWord 16 0x0EE0 = some .cls ∧ decodeTableWord 16 0x1ABC = some (.jp 0xABC) ∧
    decodeTableWord 16 0x2ABC = some (.call 0xABC) ∧ decodeTableWord 16 0xBABC = some (.jpV0 0xABC) := by
  decide

theorem test_decode_skip :
    decodeTableWord 16 0x3A12 = some (.seByte 0xA 0x12) ∧
    decodeTableWord 16 0x4A12 = some (.sneByte 0xA 0x12) ∧
    decodeTableWord 16 0xEAA1 = some (.sknp 0xA) := by decide

theorem test_decode_immediate :
    decodeTableWord 16 0x6A12 = some (.ldByte 0xA 0x12) ∧
    decodeTableWord 16 0x7A12 = some (.addByte 0xA 0x12) ∧
    decodeTableWord 16 0xCA12 = some (.rnd 0xA 0x12) := by decide

theorem test_decode_alu :
    decodeTableWord 16 0x8AB0 = some (.ldReg 0xA 0xB) ∧ decodeTableWord 16 0x8AB2 = some (.andReg 0xA 0xB) ∧
    decodeTableWord 16 0x8AB4 = some (.addReg 0xA 0xB) ∧
    decodeTableWord 16 0x8AB5 = some (.subReg 0xA 0xB) := by decide

theorem test_decode_index_draw :
    decodeTableWord 16 0xAABC = some (.ldI 0xABC) ∧ decodeTableWord 16 0xFA1E = some (.addI 0xA) ∧
    decodeTableWord 16 0xFA29 = some (.ldF 0xA) ∧ decodeTableWord 16 0xFA33 = some (.ldB 0xA) ∧
    decodeTableWord 16 0xFA55 = some (.ldMem 0xA) ∧ decodeTableWord 16 0xDAB5 = some (.drw 0xA 0xB 5) := by
  decide

theorem test_decode_timer :
    decodeTableWord 16 0xFA07 = some (.ldFromDT 0xA) ∧ decodeTableWord 16 0xFA15 = some (.ldDT 0xA) ∧
    decodeTableWord 16 0xFA18 = some (.ldST 0xA) := by decide

theorem test_decode_none :
    decodeTableWord 16 0x5AB0 = none ∧ decodeTableWord 16 0x8AB1 = none ∧ decodeTableWord 16 0x8ABF = none ∧
    decodeTableWord 16 0x9AB0 = none ∧ decodeTableWord 16 0xEA9E = none ∧ decodeTableWord 16 0xFA0A = none ∧
    decodeTableWord 16 0xFA65 = none ∧ decodeTableWord 16 0xFAFF = none := by decide

theorem test_decodeBytes :
    decodeBytes [0x12, 0x34, 0x56] = .ok (.jp 0x234, [0x56]) ∧ decodeBytes [0x12] = .error .truncated := by
  decide

/-! ### Fetch: 95_test_vectors.md 2.2 -/

theorem test_fetch_odd : ((State.reset.storeBytes 0x201 [0x34, 0x56]).setPc 0x201).fetch = 0x3456 := by decide

theorem test_fetch_wraps : ((State.reset.memWrite 0xFFF 0x60).setPc 0x0FFF).fetch = 0x60F0 := by decide

theorem test_fetch_reduces : ((State.reset.storeBytes 0x0FE [0x12, 0x00]).setPc 0x10FE).fetch = 0x1200 := by
  decide

/-! ### One step: 95_test_vectors.md 2.3 to 2.9 -/

theorem test_sys : (run State.reset 0x0300).map (fun t => (t.pc, t.sp)) = some (0x300, 0) := by decide

theorem test_cls :
    (run ((withRegs [(15, 7)]).setDisplay 32) 0x00E0).map
      (fun t => (t.disp, t.readReg 15, t.drawNeeded, t.pc)) = some (0, 7, false, 0x202) := by decide +kernel

theorem test_jp_odd : (run State.reset 0x1201).map (fun t => (t.pc, t.halted)) = some (0x201, false) := by
  decide

theorem test_call_wraps :
    (run (State.reset.setPc 0xFFFE) 0x2400).map (fun t => (t.stack[0], t.sp, t.pc)) = some (0, 1, 0x400) := by
  decide

theorem test_call_full :
    (run { State.reset with sp := 16, pc := 0x300 } 0x2400).map
        (fun t => (t.report, t.halted, t.cause, t.epc, t.eop)) =
      some (.stackOverflow, true, 2, 0x300, 0x2400) ∧
    (run { State.reset with sp := 16, pc := 0x300 } 0x2400).map (fun t => (t.sp, t.pc, t.stack)) =
      some (16, 0x300, State.reset.stack) := by decide

theorem test_ret_keeps_16_bits :
    (run { State.reset with sp := 2, stack := State.reset.stack.set 1 0x10FE } 0x00EE).map
      (fun t => (t.sp, t.pc, t.stack[1])) = some (1, 0x10FE, 0x10FE) := by decide

theorem test_ret_empty :
    (run State.reset 0x00EE).map (fun t => (t.report, t.halted, t.cause, t.epc, t.eop, t.pc)) =
      some (.stackUnderflow, true, 3, 0x200, 0x00EE, 0x200) := by decide

theorem test_jpV0_exceeds_memory :
    (run (withRegs [(0, 0xFF)]) 0xBFFF).map (fun t => t.pc) = some 0x10FE := by decide

theorem test_jpV0_uses_V0 :
    (run (withRegs [(3, 0x55), (0, 0x04)]) 0xB300).map (fun t => t.pc) = some 0x304 := by decide

theorem test_seByte_wraps : (run (State.reset.setPc 0xFFFE) 0x3000).map (fun t => t.pc) = some 2 := by decide

theorem test_seByte_differs : (run (withRegs [(3, 0x2B)]) 0x332A).map (fun t => t.pc) = some 0x202 := by decide

theorem test_sneByte :
    (run (withRegs [(3, 0x2A)]) 0x432A).map (fun t => t.pc) = some 0x202 ∧
    (run State.reset 0x432A).map (fun t => t.pc) = some 0x204 := by decide

theorem test_sknp :
    (run ((withRegs [(5, 7)]).withInputs noKeys 0) 0xE5A1).map (fun t => t.pc) = some 0x204 ∧
    (run ((withRegs [(5, 15)]).withInputs (noKeys.set 15 true) 0) 0xE5A1).map (fun t => t.pc) = some 0x202 := by
  decide

theorem test_sknp_index :
    (run (withRegs [(5, 0x10)]) 0xE5A1).map (fun t => (t.report, t.halted, t.cause, t.epc, t.eop, t.pc)) =
      some (.keyIndexOutOfRange, true, 4, 0x200, 0xE5A1, 0x200) := by decide

theorem test_ldByte : (run State.reset 0x6A3C).map (fun t => (t.readReg 0xA, t.pc)) = some (0x3C, 0x202) := by
  decide

theorem test_addByte_no_flag :
    (run (withRegs [(0, 0xFF)]) 0x7002).map (fun t => (t.readReg 0, t.readReg 15)) = some (1, 0) := by decide

theorem test_addByte_VF : (run (withRegs [(15, 0xFE)]) 0x7F03).map (fun t => t.readReg 15) = some 1 := by decide

theorem test_rnd :
    (run (State.reset.withInputs noKeys 0xB7) 0xC10F).map (fun t => t.readReg 1) = some 7 ∧
    (run (State.reset.withInputs noKeys 0xFE) 0xC2FF).map (fun t => t.readReg 2) = some 0xFE := by decide

theorem test_ldReg : (run (withRegs [(15, 1)]) 0x8EF0).map (fun t => t.readReg 14) = some 1 := by decide

theorem test_andReg :
    (run (withRegs [(1, 0xF0), (2, 0x3C), (15, 9)]) 0x8122).map
      (fun t => (t.readReg 1, t.readReg 2, t.readReg 15)) = some (0x30, 0x3C, 9) := by decide

theorem test_addReg_flag_is_reset :
    (run (withRegs [(1, 0x7F), (2, 0x80), (15, 1)]) 0x8124).map (fun t => (t.readReg 1, t.readReg 15)) =
      some (0xFF, 0) := by decide

theorem test_addReg_VF :
    (run (withRegs [(0, 1), (15, 0xFF)]) 0x80F4).map (fun t => (t.readReg 0, t.readReg 15)) = some (0, 1) ∧
    (run (withRegs [(15, 0xF0), (1, 0x20)]) 0x8F14).map (fun t => t.readReg 15) = some 0x10 := by decide

theorem test_subReg_equal :
    (run (withRegs [(1, 5), (2, 5), (15, 1)]) 0x8125).map (fun t => (t.readReg 1, t.readReg 15)) =
      some (0, 0) := by decide

theorem test_subReg_order :
    (run (withRegs [(1, 3), (2, 5)]) 0x8125).map (fun t => (t.readReg 1, t.readReg 15)) = some (0xFE, 0) ∧
    (run (withRegs [(15, 9), (1, 4)]) 0x8F15).map (fun t => t.readReg 15) = some 5 := by decide

theorem test_ldI : (run (State.reset.setI 0xFFFF) 0xA300).map (fun t => t.I) = some 0x300 := by decide

theorem test_addI :
    (run ((withRegs [(2, 1)]).setI 0x0FFF) 0xF21E).map (fun t => (t.I, t.readReg 15)) = some (0x1000, 0) ∧
    (run ((withRegs [(2, 2)]).setI 0xFFFF) 0xF21E).map (fun t => t.I) = some 1 := by decide

theorem test_ldF : (run (withRegs [(0, 0xFF)]) 0xF029).map (fun t => t.I) = some 1275 := by decide

theorem test_ldB :
    (run ((withRegs [(0, 0xEA)]).setI 0x300) 0xF033).map
      (fun t => (t.memRead 0x300, t.memRead 0x301, t.memRead 0x302, t.I)) = some (2, 3, 4, 0x300) := by decide

theorem test_ldB_wraps :
    (run ((withRegs [(0, 0x7B)]).setI 0x0FFE) 0xF033).map
      (fun t => (t.memRead 0xFFE, t.memRead 0xFFF, t.memRead 0)) = some (1, 2, 3) := by decide

theorem test_ldMem :
    (run ((withRegs [(0, 0xEA), (1, 7), (2, 9)]).setI 0x300) 0xF155).map
      (fun t => (t.memRead 0x300, t.memRead 0x301, t.memRead 0x302, t.I)) = some (0xEA, 7, 0, 0x300) := by decide

theorem test_ldMem_advances :
    (run { (withRegs [(0, 0xEA), (1, 7)]).setI 0x300 with
        params := { Config.defaults with storeAdvancesI := true } } 0xF155).map
      (fun t => (t.memRead 0x301, t.I)) = some (7, 0x302) := by decide

/-- 95_test_vectors.md S4: cells 60..67, then none and a collision. -/
theorem test_drw_wraps_to_next_row :
    (run (((withRegs [(1, 60)]).setI 0x300).memWrite 0x300 0xFF) 0xD121).map
      (fun t => (t.disp, t.readReg 15, t.drawNeeded)) = some ((0xFF : Display) <<< 60, 0, true) ∧
    (run ((((withRegs [(1, 60)]).setI 0x300).memWrite 0x300 0xFF).setDisplay (0xFF <<< 60)) 0xD121).map
      (fun t => (t.disp, t.readReg 15, t.pc)) = some (0, 1, 0x202) := by decide +kernel

/-- 95_test_vectors.md 2.8: bit 0 is the rightmost column; x = F is read before it is written. -/
theorem test_drw_bit_order :
    (run ((State.reset.setI 0x300).memWrite 0x300 0x01) 0xD121).map (fun t => t.disp) = some ((1 : Display) <<< 7) ∧
    (run (((withRegs [(15, 3)]).setI 0x300).memWrite 0x300 0x80) 0xDF11).map
      (fun t => (t.disp, t.readReg 15)) = some ((1 : Display) <<< 3, 0) := by decide +kernel

theorem test_ldFromDT :
    (run (State.reset.setDT 3) 0xF107).map (fun t => (t.readReg 1, t.DT)) = some (3, 3) := by decide

theorem test_ldDT : (run (withRegs [(0, 0x3C)]) 0xF015).map (fun t => t.DT) = some 60 := by decide

theorem test_ldST : (run ((withRegs [(4, 0)]).setST 9) 0xF418).map (fun t => t.ST) = some 0 := by decide

/-! ### Errors and the other operations: 95_test_vectors.md 2.9, 2.10 -/

theorem test_decode_failure_advance :
    (run State.reset 0x8121).map (fun t => (t.report, t.cause, t.epc, t.eop, t.halted, t.pc)) =
      some (.decodeFailure, 1, 0x200, 0x8121, false, 0x202) := by decide

theorem test_decode_failure_halt :
    (run (State.resetWith { Config.defaults with unknownOpcode := .halt }) 0x8121).map
        (fun t => (t.report, t.cause, t.epc, t.eop, t.halted, t.pc)) =
      some (.decodeFailure, 1, 0x200, 0x8121, true, 0x200) := by decide

theorem test_cause_is_sticky :
    (run { State.reset with cause := 1 } 0x6001).map (fun t => (t.report, t.readReg 0, t.cause)) =
      some (.ok, 1, 1) := by decide

theorem test_tick :
    (({ State.reset with DT := 3, ST := 1, halted := true } : State).tick.DT, State.reset.tick.ST) =
      ((2, 0) : Byte × Byte) := by decide

/-- 00_scope.md R7, 41_skip.md R112: the step after a key change sees the level it set. -/
theorem test_keyChange :
    (run ((withRegs [(5, 7)]).keyChange (noKeys.set 7 true)) 0xE5A1).map (fun t => t.pc) = some 0x202 ∧
    (run ((withRegs [(5, 7)]).keyChange (allKeys.set 7 false)) 0xE5A1).map (fun t => t.pc) = some 0x204 := by
  decide

theorem test_resetLoad :
    ((State.reset.resetLoad [0x12, 0x34]).fetch, (State.reset.resetLoad [0x12, 0x34]).report) =
      (0x1234, .ok) := by decide

/-- 20_memory.md R57 and R37: the first byte of the glyph of A. -/
theorem test_reset_glyph : State.reset.memRead 50 = 0xF0 ∧ State.reset.memRead 0x0FF = 0 := by decide

theorem test_snapshot : State.reset.snapshot.length = 2048 := by simp [State.snapshot]

theorem test_renderer_view :
    (State.reset.setDisplay (1 <<< 67)).pixel 3 1 = true ∧ (State.reset.setST 1).soundOn = true ∧
    State.reset.soundOn = false := by decide +kernel

/-- The host's machine is this one. -/
theorem test_core_reset : Sys2Proof.core.reset = State.reset := rfl

/-! ### Witnesses of the statements about encoding and the step -/

theorem witness_DecodeOfEncode : WellFormed (.sys 0xFFF) = true ∧ WellFormed (.drw 15 15 15) = true := by decide

theorem witness_EncodeOfDecode :
    decode 0xDFFF = .ok (.drw 15 15 15) ∧ decode 0x0AE0 = .ok .cls ∧ encode .cls = 0x0AE0 &&& 0xF0FF := by decide

theorem witness_DecoderFollowsOpcodeMap :
    decode 0x00E1 = .ok (.sys 0x0E1) ∧ SelectsRow 0x00E1 (.sys 0x0E1) ∧ SelectsRow 0x0AE0 .cls ∧
    ¬ SelectsRow 0x0AE0 (.sys 0xAE0) := by unfold SelectsRow; decide

theorem witness_IllegalWordsRejected :
    IllegalWord 0x5000 ∧ IllegalWord 0x9FFF ∧ IllegalWord 0x8AB1 ∧ IllegalWord 0xEAA0 ∧ IllegalWord 0xFA65 ∧
    ¬ IllegalWord 0x8AB5 ∧ ¬ IllegalWord 0xEAA1 ∧ ¬ IllegalWord 0xFA55 := by simp [IllegalWord]

theorem witness_AbsentInstructionsFailDecode :
    wordXKK 0xF 15 0x65 = 0xFF65 ∧ (State.reset.placeWord 0xFF65).halted = false ∧
    (State.reset.placeWord 0xFF65).fetch = 0xFF65 := by decide

theorem witness_StepRunsDecodedInstruction :
    State.reset.halted = false ∧ decode State.reset.fetch = .ok (.sys 0) := by decide

/-- A halted machine, and an image of the greatest length. -/
theorem witness_HaltedStepChangesNothing :
    (State.reset.halt).halted = true ∧ (List.replicate 3584 (0 : Byte)).length ≤ 3584 :=
  ⟨rfl, Nat.le_of_eq List.length_replicate⟩

theorem witness_DecodeFailureByPolicy_advance :
    (State.reset.placeWord 0x5000).halted = false ∧
    decode (State.reset.placeWord 0x5000).fetch = .error (.unknownOpcode 0x5000) ∧
    (State.reset.placeWord 0x5000).params.unknownOpcode = .advance := by decide

theorem witness_DecodeFailureByPolicy_halt :
    ((State.resetWith { Config.defaults with unknownOpcode := .halt }).placeWord 0x5000).halted = false ∧
    decode ((State.resetWith { Config.defaults with unknownOpcode := .halt }).placeWord 0x5000).fetch =
      .error (.unknownOpcode 0x5000) ∧
    ((State.resetWith { Config.defaults with unknownOpcode := .halt }).placeWord 0x5000).params.unknownOpcode =
      .halt := by decide

theorem witness_StoredInstructionIsRun : WellFormed (.call 0xFFF) = true := by decide

/-! ### Witnesses of the statements about one instruction: each clause at the ends of its range -/

theorem witness_RetPopsIntoPc :
    0 < ({ State.reset with sp := 1 } : State).sp.val ∧ 0 < ({ State.reset with sp := 16 } : State).sp.val ∧
    State.reset.sp.val = 0 := by decide

theorem witness_SysJumps :
    ((0x0E1 : BitVec 12).toNat % 256 ≠ 0xE0 ∧ (0x0E1 : BitVec 12).toNat % 256 ≠ 0xEE) ∧
    (0xFE0 : BitVec 12).toNat % 256 = 0xE0 ∧ (0x0EE : BitVec 12).toNat % 256 = 0xEE := by decide

theorem witness_CallPushesReturnAddress :
    State.reset.sp.val < 16 ∧ ({ State.reset with sp := 15 } : State).sp.val < 16 ∧
    ({ State.reset with sp := 16 } : State).sp.val = 16 := by decide

theorem witness_SknpSkipsIfNotHeld :
    ((withRegs [(5, 0)]).readReg 5).toNat < 16 ∧ ((withRegs [(5, 15)]).readReg 5).toNat < 16 ∧
    15 < ((withRegs [(5, 16)]).readReg 5).toNat ∧ 15 < ((withRegs [(5, 255)]).readReg 5).toNat := by decide

theorem witness_SknpSkipsIfNotHeld_levels :
    (State.reset.withInputs noKeys 0).keys[0] = false ∧ (State.reset.withInputs allKeys 0).keys[15] = true := by
  decide

theorem witness_RndMasksTheDraw :
    ((0xFE : Byte) &&& 0xFF = 0xFE ∧ (0xFE : Byte) ≠ 0xFF) ∧ ((0 : Byte) &&& 0 = 0 ∧ (0 : Byte) ≠ 0xFF) := by
  decide

theorem witness_AddRegSetsCarry : (14 : Reg) ≠ regVF := by decide

theorem witness_SubRegSetsNotBorrow : (0 : Reg) ≠ regVF := by decide

/-- With x = F the block is all sixteen registers; with x = 0 it is V0 alone. -/
theorem witness_LdMemStoresRegisters :
    ((15 : Reg).val ≤ (15 : Reg).val ∧ (0 : Reg).val ≤ (0 : Reg).val) ∧
    State.reset.params.storeAdvancesI = false ∧
    (State.resetWith { Config.defaults with storeAdvancesI := true }).params.storeAdvancesI = true := by decide

/-- The first glyph byte is 0xF0: its sprite of one row covers cell 0 and not cell 4. -/
theorem witness_DrwXorsSprite :
    SpriteCovers State.reset 0 0 1 0 ∧ ¬ SpriteCovers State.reset 0 0 1 4 := by unfold SpriteCovers; decide

/-- The cell covered is set in the one case, and no cell is in the other. -/
theorem witness_DrwXorsSprite_collision :
    (∃ k, SpriteCovers (State.reset.setDisplay 1) 0 0 1 k ∧ (State.reset.setDisplay 1).disp.getLsbD k = true) ∧
    ¬ ∃ k, SpriteCovers State.reset 0 0 1 k ∧ State.reset.disp.getLsbD k = true :=
  ⟨⟨0, by unfold SpriteCovers; decide +kernel⟩, fun ⟨_, _, h⟩ => by simp [State.reset, State.resetWith] at h⟩

theorem witness_DrawTwiceRestores :
    ((0 : Reg) ≠ regVF ∧ (14 : Reg) ≠ regVF) ∧ State.reset.disp = 0 ∧
    ∃ row < (1 : BitVec 4).toNat, State.reset.memRead (State.reset.I.toNat + row) ≠ 0 := by decide +kernel

theorem witness_CallThenRetReturns : ({ State.reset with sp := 15 } : State).sp.val < 16 := by decide

/-! ### Witnesses of the rules over all instructions -/

theorem witness_RegistersWrittenAsTabled :
    ∃ t, exec (.ldByte 3 7) State.reset = .next t ∧ (4 : Reg) ∉ regsWritten (.ldByte 3 7) :=
  ⟨_, rfl, by decide⟩

theorem witness_FlagWrittenByThree :
    (∃ t, exec (.addReg 14 15) State.reset = .next t) ∧ (14 : Reg) ≠ regVF ∧
    (∃ t, exec (.drw 15 15 0) State.reset = .next t) ∧
    (∃ t, exec (.ldByte 14 0) State.reset = .next t) ∧ regVF ∉ regsWritten (.ldByte 14 0) :=
  ⟨⟨_, rfl⟩, by decide, ⟨_, rfl⟩, ⟨_, rfl⟩, by decide⟩

theorem witness_PcAfterEveryInstruction :
    (∃ t, exec (.jp 5) State.reset = .next t ∧ t.report = .ok) ∧
    ∃ t, exec .ret State.reset = .next t ∧ t.report ≠ .ok :=
  ⟨⟨_, rfl, rfl⟩, ⟨_, rfl, by decide⟩⟩

theorem witness_OnlyCallAndRetMoveStack :
    ∃ t, step (State.reset.placeWord 0x2400) = .next t ∧
      (t.sp ≠ (State.reset.placeWord 0x2400).sp ∨ t.stack ≠ (State.reset.placeWord 0x2400).stack) :=
  ⟨_, rfl, by decide⟩

theorem witness_StepNeverCountsTimers :
    (∃ t, step ((withRegs [(0, 5)]).placeWord 0xF015) = .next t ∧ t.DT ≠ State.reset.DT) ∧
    ∃ t, step ((withRegs [(0, 5)]).placeWord 0xF018) = .next t ∧ t.ST ≠ State.reset.ST :=
  ⟨⟨_, rfl, by decide⟩, ⟨_, rfl, by decide⟩⟩

theorem witness_OnlyClsAndDrwChangeDisplay :
    (∃ t, step ((State.reset.setDisplay 1).placeWord 0x00E0) = .next t ∧ t.disp ≠ 1) ∧
    ∃ t, step (State.reset.placeWord 0xD001) = .next t ∧ t.disp ≠ 0 ∧ t.drawNeeded ≠ State.reset.drawNeeded :=
  ⟨⟨_, rfl, by decide +kernel⟩, ⟨_, rfl, by decide +kernel, by decide⟩⟩

theorem witness_OnlyStoresChangeMemory :
    (∃ t, step (((withRegs [(0, 5)]).setI 0x300).placeWord 0xF033) = .next t ∧ t.memRead 0x302 ≠ 0) ∧
    ((withRegs [(0, 5)]).setI 0x300).memRead 0x302 = 0 ∧
    (∃ t, step (((withRegs [(0, 5)]).setI 0x300).placeWord 0xF055) = .next t ∧ t.memRead 0x300 ≠ 0) ∧
    ((withRegs [(0, 5)]).setI 0x300).memRead 0x300 = 0 :=
  ⟨⟨_, rfl, by decide⟩, by decide, ⟨_, rfl, by decide⟩, by decide⟩

theorem witness_OnlyIndexInstructionsChangeI :
    (∃ t, step (State.reset.placeWord 0xA300) = .next t ∧ t.I ≠ State.reset.I) ∧
    (∃ t, step ((withRegs [(0, 5)]).placeWord 0xF01E) = .next t ∧ t.I ≠ State.reset.I) ∧
    (∃ t, step ((withRegs [(0, 5)]).placeWord 0xF029) = .next t ∧ t.I ≠ State.reset.I) ∧
    ∃ t, step ((State.resetWith { Config.defaults with storeAdvancesI := true }).placeWord 0xF055) = .next t ∧
      t.I ≠ State.reset.I :=
  ⟨⟨_, rfl, by decide⟩, ⟨_, rfl, by decide⟩, ⟨_, rfl, by decide⟩, ⟨_, rfl, by decide⟩⟩

theorem witness_ErrorsRaisedAsTabled :
    (∃ t, exec (.jp 5) State.reset = .next t ∧ t.report = .ok) ∧
    (∃ t, exec (.call 5) { State.reset with sp := 16 } = .next t ∧ t.report = .stackOverflow) ∧
    (∃ t, exec .ret State.reset = .next t ∧ t.report = .stackUnderflow) ∧
    ∃ t, exec (.sknp 0) (withRegs [(0, 16)]) = .next t ∧ t.report = .keyIndexOutOfRange :=
  ⟨⟨_, rfl, rfl⟩, ⟨_, rfl, rfl⟩, ⟨_, rfl, rfl⟩, ⟨_, rfl, rfl⟩⟩

theorem witness_InputsReachOnlySknpAndRnd :
    (∀ x, Instr.cls ≠ .sknp x) ∧ (∀ x kk, Instr.cls ≠ .rnd x kk) ∧
    (∀ x, Instr.rnd 0 0xFF ≠ .sknp x) ∧ ∀ x kk, Instr.sknp 0 ≠ .rnd x kk :=
  ⟨by decide, by intros; nofun, by decide, by intros; nofun⟩

theorem witness_OutputsInvisibleToProgram :
    SameButOutputs State.reset { State.reset with ST := 5, drawNeeded := true, cause := 1, report := .halted } :=
  rfl

/-! ### Witnesses of the statements about the other operations and the invariants -/

/-- Both ends of the lengths that fit. -/
theorem witness_ResetLoadInitialises :
    ([] : List Byte).length ≤ 3584 ∧ (List.replicate 3584 (0 : Byte)).length ≤ 3584 :=
  ⟨Nat.zero_le _, Nat.le_of_eq List.length_replicate⟩

theorem witness_LongImageRefused : 3585 ≤ (List.replicate 3585 (0 : Byte)).length :=
  Nat.le_of_eq List.length_replicate.symm

/-- Reset, and the machine halted by its first illegal word. -/
theorem witness_StepKeepsInvariant :
    Inv State.reset ∧
    Inv { State.resetWith { Config.defaults with unknownOpcode := .halt } with
      mem := [(0x200, 0x50)], halted := true, cause := 1, epc := 0x200, eop := 0x5000 } ∧
    ∃ t, step State.reset = .next t := by
  refine ⟨⟨by decide, ⟨by decide, ?_, ?_, ?_, ?_, by decide, by decide⟩⟩,
    ⟨by decide, ⟨?_, by decide, ?_, ?_, ?_, by decide, by decide⟩⟩, ⟨_, rfl⟩⟩ <;>
    exact fun h => absurd h (by decide)

theorem witness_OperationsKeepInvariant : Inv State.reset := witness_StepKeepsInvariant.1

theorem witness_HaltedUntilReset :
    (State.reset.halt).halted = true ∧
    ∀ image, Event.resetLoad image ∉ [Event.tick, .drawAck, .keyChange noKeys, .step noKeys 254] := by
  simp [State.halt]

/-- The word 0x1200 at 0x200 is a jump to itself. -/
theorem witness_StoppedNormallyStays :
    StoppedNormally (State.reset.placeWord 0x1200) ∧
    ∀ image, Event.resetLoad image ∉ [Event.tick, .step allKeys 0] :=
  ⟨⟨⟨0x200, by decide⟩, by decide, by decide⟩, by simp⟩

end Sys2Proof.Tests
end

namespace Sys2Proof.Machine

/-! ### What every instruction does to the status latch (60_exceptions.md rule R182) -/

/-- The errors by the table of 60_exceptions.md R182: in `s`, the instruction raises the outcome. -/
inductive Raises (s : State) : Instr → Report → Prop where
  | overflow (nnn : BitVec 12) (full : s.sp.val = 16) : Raises s (.call nnn) .stackOverflow
  | underflow (empty : s.sp.val = 0) : Raises s .ret .stackUnderflow
  | keyIndex (x : Reg) (beyond : 15 < (s.readReg x).toNat) : Raises s (.sknp x) .keyIndexOutOfRange

/-- `t` has the status latch and the parameters of `s`. -/
structure KeepsLatch (s t : State) : Prop where
  halted : t.halted = s.halted
  cause : t.cause = s.cause
  epc : t.epc = s.epc
  eop : t.eop = s.eop
  params : t.params = s.params

/-- An instruction that can raise no error completes and leaves the status latch alone. -/
theorem exec_keepsLatch {i : Instr} {s t : State} (h : exec i s = .next t) (hret : i ≠ .ret)
    (hcall : ∀ nnn, i ≠ .call nnn) (hsknp : ∀ x, i ≠ .sknp x) : t.report = .ok ∧ KeepsLatch s t := by
  cases i with
  | ret => exact absurd rfl hret
  | call nnn => exact absurd rfl (hcall nnn)
  | sknp x => exact absurd rfl (hsknp x)
  | _ => cases h; exact ⟨rfl, rfl, rfl, rfl, rfl, rfl⟩

/-- An instruction completes and leaves the status latch alone, or it raises the error of its own row of
R182. -/
theorem exec_next_cases {i : Instr} {s t : State} (h : exec i s = .next t) :
    (t.report = .ok ∧ KeepsLatch s t) ∨ ∃ r, Raises s i r ∧ t = (s.recordError r).halt := by
  refine exec_induction
    (fun i s t => (t.report = .ok ∧ KeepsLatch s t) ∨ ∃ r, Raises s i r ∧ t = (s.recordError r).halt)
    ?ret ?retError ?call ?callError ?sknp ?sknpError ?rest i s t h
  case ret => exact fun _ _ => .inl ⟨rfl, rfl, rfl, rfl, rfl, rfl⟩
  case retError => exact fun _ empty => .inr ⟨_, .underflow empty, rfl⟩
  case call => exact fun _ _ _ => .inl ⟨rfl, rfl, rfl, rfl, rfl, rfl⟩
  case callError => exact fun nnn _ full => .inr ⟨_, .overflow nnn full, rfl⟩
  case sknp => exact fun _ _ _ => .inl ⟨rfl, rfl, rfl, rfl, rfl, rfl⟩
  case sknpError => exact fun x _ beyond => .inr ⟨_, .keyIndex x beyond, rfl⟩
  case rest => exact fun _ _ _ h hret hcall hsknp => .inl (exec_keepsLatch h hret hcall hsknp)

/-- Every instruction answers a next state (60_exceptions.md R183, R184). -/
theorem exec_completes (i : Instr) (s : State) : ∃ t, exec i s = .next t := by
  cases i with
  | ret => rcases execRet_cases s with ⟨_, e⟩ | ⟨_, e⟩ <;> exact ⟨_, e⟩
  | call nnn => rcases execCall_cases nnn s with ⟨_, e⟩ | ⟨_, e⟩ <;> exact ⟨_, e⟩
  | sknp x => rcases execSknp_cases x s with ⟨_, e⟩ | ⟨_, e⟩ <;> exact ⟨_, e⟩
  | _ => exact ⟨_, rfl⟩

/-- Every step answers a next state (30_encoding.md R75, 60_exceptions.md R185). -/
theorem step_completes (s : State) : ∃ t, step s = .next t := by
  rcases step_cases s with ⟨_, e⟩ | ⟨_, _, e⟩ | ⟨i, _, _, e⟩
  · exact ⟨_, e⟩
  · exact ⟨_, e⟩
  · obtain ⟨t, ht⟩ := exec_completes i s
    exact ⟨t.consumeInputs, by rw [e, ht]; rfl⟩

/-! ### What keeps the parameters -/

theorem exec_params {i : Instr} {s t : State} (h : exec i s = .next t) : t.params = s.params := by
  rcases exec_next_cases h with ⟨-, hl⟩ | ⟨r, -, rfl⟩
  · exact hl.params
  · rfl

@[simp] theorem raiseDecodeFailure_params (s : State) : (raiseDecodeFailure s).params = s.params := by
  rcases raiseDecodeFailure_cases s with ⟨-, e⟩ | ⟨-, e⟩ <;> rw [e]

theorem step_params {s t : State} (h : step s = .next t) : t.params = s.params := by
  rcases step_cases s with ⟨-, e⟩ | ⟨-, -, e⟩ | ⟨i, -, -, e⟩ <;> rw [e] at h
  · cases h; rfl
  · cases h; exact raiseDecodeFailure_params s
  · obtain ⟨u, hu, rfl⟩ := afterExec_next h
    simpa using exec_params hu

@[simp] theorem State.resetLoad_params (s : State) (image : List Byte) :
    (s.resetLoad image).params = s.params := by
  unfold State.resetLoad
  split <;> rfl

/-! ### What keeps memory canonical (20_memory.md rule R58) -/

/-- Only LD B and LD [I] write memory (20_memory.md R54), and a store keeps it canonical. -/
theorem exec_memory_wf {i : Instr} {s t : State} (h : exec i s = .next t)
    (hm : Memory.wf s.params.glyphTable s.mem = true) : Memory.wf t.params.glyphTable t.mem = true := by
  refine exec_induction
    (fun _ s t => Memory.wf s.params.glyphTable s.mem = true → Memory.wf t.params.glyphTable t.mem = true)
    ?ret ?retError ?call ?callError ?sknp ?sknpError ?rest i s t h hm
  case rest =>
    intro i s t h hret hcall hsknp hm
    cases i with
    | ldB x => rw [execLdB_next h]; exact Memory.wf_store _ _ hm
    | ldMem x => rw [execLdMem_next h]; exact Memory.wf_store _ _ hm
    | ret => exact absurd rfl hret
    | call nnn => exact absurd rfl (hcall nnn)
    | sknp x => exact absurd rfl (hsknp x)
    | _ => cases h; exact hm
  all_goals intros; assumption

@[simp] theorem raiseDecodeFailure_mem (s : State) : (raiseDecodeFailure s).mem = s.mem := by
  rcases raiseDecodeFailure_cases s with ⟨-, e⟩ | ⟨-, e⟩ <;> rw [e]

/-! ### What keeps the status latch truthful -/

@[simp] theorem State.recordError_fetch (s : State) (r : Report) : (s.recordError r).fetch = s.fetch := rfl

@[simp] theorem State.halt_fetch (s : State) : s.halt.fetch = s.fetch := rfl

@[simp] theorem State.recordError_readReg (s : State) (r : Report) (x : Reg) :
    (s.recordError r).readReg x = s.readReg x := rfl

@[simp] theorem State.halt_readReg (s : State) (x : Reg) : s.halt.readReg x = s.readReg x := rfl

/-- The latch of a running machine tells nothing of its registers, stack and memory. -/
theorem LatchOk.of_keepsLatch {s t : State} (h : LatchOk s) (run : s.halted = false)
    (hl : KeepsLatch s t) : LatchOk t := by
  have live : ∀ {p : Prop}, s.halted = true → p := fun hh => absurd (run.symm.trans hh) Bool.false_ne_true
  obtain ⟨eh, ec, ee, eo, ep⟩ := hl
  constructor <;> simp only [eh, ec, ee, eo, ep]
  case none => exact h.none
  case decodeFailure => exact h.decodeFailure
  case stackOverflow => exact fun hc => live (h.stackOverflow hc).1
  case stackUnderflow => exact fun hc => live (h.stackUnderflow hc).1
  case keyIndex => exact fun hc => live (h.keyIndex hc).1
  case codes => exact h.codes
  case points => exact live

/-- A fatal error records what R184 says of it. -/
theorem LatchOk.of_raises {i : Instr} {s : State} {r : Report} (hd : decode s.fetch = .ok i)
    (hr : Raises s i r) : LatchOk (s.recordError r).halt := by
  cases hr with
  | overflow nnn full => constructor <;> simp [causeCode, hd, full]
  | underflow empty => constructor <;> simp [causeCode, hd, empty]
  | keyIndex x beyond => constructor <;> simp [causeCode, hd, beyond]

/-- A decode failure of a running machine records what R183 says of it. -/
theorem LatchOk.of_decodeFailure {s : State} (run : s.halted = false)
    (hd : decode s.fetch = .error (.unknownOpcode s.fetch)) : LatchOk (raiseDecodeFailure s) := by
  rcases raiseDecodeFailure_cases s with ⟨policy, e⟩ | ⟨policy, e⟩ <;> rw [e]
  · constructor <;> simp [run, hd, policy]
  · change LatchOk (s.recordError .decodeFailure).halt
    constructor <;> simp [causeCode, hd, policy]

/-- The latch that reset leaves (10_state.md R37). -/
theorem LatchOk.of_cleared {s : State} (hh : s.halted = false) (hc : s.cause = 0) (he : s.epc = 0)
    (ho : s.eop = 0) : LatchOk s := by
  constructor <;> simp [hh, hc, he, ho]

/-! ### What keeps the invariant -/

/-- The invariant reads none of the parts that a halted machine may still change. -/
theorem Inv.of_frozenBy {s t : State} (h : Inv s) (hf : FrozenBy s t) : Inv t := by
  obtain ⟨hm, h0, h1, h2, h3, h4, hc, hp⟩ := h
  rw [hf]
  exact ⟨hm, h0, h1, h2, h3, h4, hc, hp⟩

/-- An instruction that a running machine has fetched keeps the invariant. -/
theorem Inv.of_exec {i : Instr} {s t : State} (h : Inv s) (run : s.halted = false)
    (hd : decode s.fetch = .ok i) (ht : exec i s = .next t) : Inv t := by
  refine ⟨exec_memory_wf ht h.memory, ?_⟩
  rcases exec_next_cases ht with ⟨-, hl⟩ | ⟨r, hr, rfl⟩
  · exact h.latch.of_keepsLatch run hl
  · exact .of_raises hd hr

/-- Every step keeps the invariant. -/
theorem Inv.of_step {s t : State} (h : Inv s) (ht : step s = .next t) : Inv t := by
  rcases step_cases s with ⟨-, e⟩ | ⟨run, hd, e⟩ | ⟨i, run, hd, e⟩ <;> rw [e] at ht
  · cases ht
    exact h.of_frozenBy rfl
  · cases ht
    have failed : Inv (raiseDecodeFailure s) := ⟨by simpa using h.memory, .of_decodeFailure run hd⟩
    exact failed.of_frozenBy rfl
  · obtain ⟨u, hu, rfl⟩ := afterExec_next ht
    exact (h.of_exec run hd hu).of_frozenBy rfl

/-- A load keeps the invariant: it starts from cleared memory and a cleared latch, or is refused and changes
nothing but the outcome (70_reset_and_hazards.md R210, R211). -/
theorem Inv.of_resetLoad {s : State} (h : Inv s) (image : List Byte) : Inv (s.resetLoad image) := by
  unfold State.resetLoad
  split
  · exact ⟨Memory.wf_store 512 image (Memory.wf_nil _), .of_cleared rfl rfl rfl rfl⟩
  · exact h.of_frozenBy rfl

/-- Every operation completes and keeps the invariant and the parameters. -/
theorem drive_keepsInv (e : Event) {s : State} (h : Inv s) :
    ∃ t, drive e s = .next t ∧ Inv t ∧ t.params = s.params := by
  cases e with
  | step keys r =>
    have handed : Inv (s.withInputs keys r) := h.of_frozenBy rfl
    obtain ⟨t, ht⟩ := step_completes (s.withInputs keys r)
    exact ⟨t, ht, handed.of_step ht, by simpa using step_params ht⟩
  | tick => exact ⟨_, rfl, h.of_frozenBy rfl, rfl⟩
  | drawAck => exact ⟨_, rfl, h.of_frozenBy rfl, rfl⟩
  | resetLoad image => exact ⟨_, rfl, h.of_resetLoad image, s.resetLoad_params image⟩
  | keyChange keys => exact ⟨_, rfl, h.of_frozenBy rfl, rfl⟩

theorem driveAll_cons {e : Event} {s t : State} (h : drive e s = .next t) (es : List Event) :
    driveAll (e :: es) s = driveAll es t := by
  simp only [driveAll, h]

/-- Settles O58, by induction on the sequence of operations: each of the five keeps the invariant. -/
theorem operationsKeepInvariant : Obligations.OperationsKeepInvariant := by
  unfold Obligations.OperationsKeepInvariant
  intro es
  induction es with
  | nil => exact fun s h => ⟨s, rfl, h, rfl⟩
  | cons e es ih =>
    intro s h
    obtain ⟨t, ht, hi, hp⟩ := drive_keepsInv e h
    obtain ⟨u, hu, hi', hp'⟩ := ih t hi
    exact ⟨u, (driveAll_cons ht es).trans hu, hi', hp'.trans hp⟩

/-! ### What handing over inputs changes (00_scope.md rule R8) -/

@[simp] theorem State.withInputs_keys (s : State) (k : Keys) (r : RandomDraw) :
    (s.withInputs k r).keys = k := rfl

@[simp] theorem State.withInputs_draw (s : State) (k : Keys) (r : RandomDraw) :
    (s.withInputs k r).draw = r := rfl

theorem State.push_withInputs (s : State) (v : Word) (k : Keys) (r : RandomDraw) :
    (s.withInputs k r).push v = (s.push v).map fun t => t.withInputs k r := by
  unfold State.push
  rw [apply_dite (Option.map _)]
  rfl

theorem State.pop_withInputs (s : State) (k : Keys) (r : RandomDraw) :
    (s.withInputs k r).pop = s.pop.map fun p => (p.1, p.2.withInputs k r) := by
  unfold State.pop
  rw [apply_dite (Option.map _)]
  rfl

theorem execRet_withInputs (s : State) (k : Keys) (r : RandomDraw) :
    execRet (s.withInputs k r) = mapNext (fun t => t.withInputs k r) (execRet s) := by
  unfold execRet
  rw [State.pop_withInputs]
  cases s.pop <;> rfl

theorem execCall_withInputs (nnn : BitVec 12) (s : State) (k : Keys) (r : RandomDraw) :
    execCall nnn (s.withInputs k r) = mapNext (fun t => t.withInputs k r) (execCall nnn s) := by
  unfold execCall
  have next : (s.withInputs k r).nextPc = s.nextPc := rfl
  rw [next, State.push_withInputs]
  cases s.push s.nextPc <;> rfl

/-- SKNP does the same where the levels handed over are those it would see anyway. -/
theorem execSknp_withInputs (x : Reg) {s : State} {k : Keys} (r : RandomDraw) (hk : s.keys = k) :
    execSknp x (s.withInputs k r) = mapNext (fun t => t.withInputs k r) (execSknp x s) := by
  subst hk
  unfold execSknp
  have operand : (s.withInputs s.keys r).readReg x = s.readReg x := rfl
  simp only [operand, State.withInputs_keys]
  split <;> rfl

/-- RND does the same where the draw handed over is the one it would take anyway. -/
theorem execRnd_withInputs (x : Reg) (kk : Byte) {s : State} (k : Keys) {r : RandomDraw} (hr : s.draw = r) :
    execRnd x kk (s.withInputs k r) = mapNext (fun t => t.withInputs k r) (execRnd x kk s) := by
  subst hr
  rfl

/-- Handing over inputs changes nothing but the inputs, where SKNP gets the levels and RND the draw that it
would see anyway: no other instruction reads them. -/
theorem exec_withInputs (i : Instr) (s : State) (k : Keys) (r : RandomDraw)
    (hk : ∀ x, i = .sknp x → s.keys = k) (hr : ∀ x kk, i = .rnd x kk → s.draw = r) :
    exec i (s.withInputs k r) = mapNext (fun t => t.withInputs k r) (exec i s) := by
  cases i with
  | ret => exact execRet_withInputs s k r
  | call nnn => exact execCall_withInputs nnn s k r
  | sknp x => exact execSknp_withInputs x r (hk x rfl)
  | rnd x kk => exact execRnd_withInputs x kk k (hr x kk rfl)
  | _ => rfl

/-- Settles O49: each clause hands over inputs, of which those that the instruction may read are unchanged. -/
theorem inputsReachOnlySknpAndRnd : Obligations.InputsReachOnlySknpAndRnd := by
  unfold Obligations.InputsReachOnlySknpAndRnd
  intro i s keys keys' r r'
  refine ⟨fun notSknp notRnd => ?neither, fun notSknp => ?otherKeys, fun notRnd => ?otherDraw⟩
  case neither =>
    exact exec_withInputs i s keys r (fun x e => absurd e (notSknp x)) (fun x kk e => absurd e (notRnd x kk))
  case otherKeys =>
    exact exec_withInputs i (s.withInputs keys r) keys' r (fun x e => absurd e (notSknp x)) (fun _ _ _ => rfl)
  case otherDraw =>
    exact exec_withInputs i (s.withInputs keys r) keys r' (fun _ _ => rfl) (fun x kk e => absurd e (notRnd x kk))

end Sys2Proof.Machine

namespace Sys2Proof.Machine

/-! ### The invariant at reset and over a step -/

/-- Settles O57: the step lemma of the invariant is `Inv.of_step`, by the three things that a step can do. -/
theorem stepKeepsInvariant : Obligations.StepKeepsInvariant := by
  unfold Obligations.StepKeepsInvariant
  exact fun _ _ => Inv.of_step

/-- Settles O56: reset leaves memory empty and the status latch cleared. -/
theorem resetMeetsInvariant : Obligations.ResetMeetsInvariant := by
  unfold Obligations.ResetMeetsInvariant
  exact fun p => ⟨Memory.wf_nil p.glyphTable, .of_cleared rfl rfl rfl rfl⟩

/-- Memory that nothing has written reads as what reset leaves there (20_memory.md R51). -/
@[simp] theorem Memory.read_nil (g : GlyphTable) (a : Nat) : Memory.read g [] a = Memory.unlisted g a := rfl

theorem State.memRead_reset {a : Nat} (ha : a < 4096) :
    State.reset.memRead a = Memory.unlisted Config.defaultGlyphs a := by
  have reduced : a % 4096 = a := Nat.mod_eq_of_lt ha
  rw [State.memRead, reduced]
  exact Memory.read_nil _ a

/-- Settles O55: the registers, the slots and the cells are all 0, and memory is what it reads as unwritten. -/
theorem resetValues : Obligations.ResetValues := by
  unfold Obligations.ResetValues
  have registers : ∀ r : Reg, State.reset.readReg r = 0 := fun r => Vector.getElem_replicate r.isLt
  have slots : ∀ k (h : k < 16), State.reset.stack[k] = 0 := fun k h => Vector.getElem_replicate h
  have cells : ∀ k, k < 2048 → State.reset.disp.getLsbD k = false := fun k _ => BitVec.getLsbD_zero
  exact ⟨registers, rfl, rfl, rfl, slots, rfl, rfl, fun a ha => State.memRead_reset ha, cells,
    rfl, rfl, rfl, rfl, rfl⟩

/-! ### What an instruction leaves unchanged -/

/-- `t` has the registers, timers, memory and display of `s`: all state but pc, the call stack and the status
latch. -/
structure KeepsData (s t : State) : Prop where
  V : t.V = s.V
  I : t.I = s.I
  DT : t.DT = s.DT
  ST : t.ST = s.ST
  mem : t.mem = s.mem
  disp : t.disp = s.disp
  drawNeeded : t.drawNeeded = s.drawNeeded
  params : t.params = s.params

/-- `t` has the data and the call stack of `s`. -/
structure KeepsDataAndStack (s t : State) : Prop extends KeepsData s t where
  sp : t.sp = s.sp
  stack : t.stack = s.stack

theorem execRet_keepsData {s t : State} (h : execRet s = .next t) : KeepsData s t := by
  rcases execRet_cases s with ⟨_, e⟩ | ⟨_, e⟩ <;> cases e.symm.trans h <;> constructor <;> rfl

theorem execCall_keepsData {nnn : BitVec 12} {s t : State} (h : execCall nnn s = .next t) :
    KeepsData s t := by
  rcases execCall_cases nnn s with ⟨_, e⟩ | ⟨_, e⟩ <;> cases e.symm.trans h <;> constructor <;> rfl

theorem execSknp_keepsDataAndStack {x : Reg} {s t : State} (h : execSknp x s = .next t) :
    KeepsDataAndStack s t := by
  rcases execSknp_cases x s with ⟨_, e⟩ | ⟨_, e⟩ <;> cases e.symm.trans h <;>
    exact ⟨⟨rfl, rfl, rfl, rfl, rfl, rfl, rfl, rfl⟩, rfl, rfl⟩

/-- The instructions with an error outcome (60_exceptions.md R182). -/
def canRaise : Instr → Bool
  | .ret | .call _ | .sknp _ => true
  | _ => false

/-- The instructions with an error outcome have no data to write: they move pc, the stack or the latch. -/
theorem exec_keepsData {i : Instr} {s t : State} (h : exec i s = .next t) (hi : canRaise i = true) :
    KeepsData s t := by
  cases i with
  | ret => exact execRet_keepsData h
  | call => exact execCall_keepsData h
  | sknp => exact (execSknp_keepsDataAndStack h).toKeepsData
  | _ => cases hi

/-! ### The general registers (10_state.md R22, R23) -/

theorem loadReg_keepsRegs {x : Reg} {v : Byte} {s t : State} (h : loadReg x v s = .next t) :
    KeepsRegs s t [x] := by
  cases h
  intro r hr
  have other : x ≠ r := fun e => hr (by simp [e])
  exact (State.readReg_writeReg s x r v).trans (if_neg other)

theorem loadFlagAndReg_keepsRegs {x : Reg} {f v : Byte} {s t : State}
    (h : loadFlagAndReg x f v s = .next t) : KeepsRegs s t [x, regVF] := by
  cases h
  intro r hr
  have notResult : x ≠ r := fun e => hr (by simp [e])
  have notFlag : regVF ≠ r := fun e => hr (by simp [e])
  calc (s.writeFlagThenReg x f v).readReg r
      = (s.writeReg regVF f).readReg r := (State.readReg_writeReg _ x r v).trans (if_neg notResult)
    _ = s.readReg r := (State.readReg_writeReg s regVF r f).trans (if_neg notFlag)

/-- Where VF is not the destination, it holds the flag. -/
theorem loadFlagAndReg_flag {x : Reg} {f v : Byte} {s t : State} (hx : x ≠ regVF)
    (h : loadFlagAndReg x f v s = .next t) : t.readReg regVF = f := by
  cases h
  calc (s.writeFlagThenReg x f v).readReg regVF
      = (s.writeReg regVF f).readReg regVF := (State.readReg_writeReg _ x regVF v).trans (if_neg hx)
    _ = f := (State.readReg_writeReg s regVF regVF f).trans (if_pos rfl)

theorem execDrw_readReg {x y : Reg} {n : BitVec 4} {s t : State} (h : execDrw x y n s = .next t) (r : Reg) :
    t.readReg r = if regVF = r then flagByte (s.blitSprite x y n).2 else s.readReg r := by
  cases h
  exact State.readReg_writeReg s regVF r _

/-- Settles O40: an instruction writes by `loadReg`, by `loadFlagAndReg` or, for DRW, VF alone, or it leaves the
register file as it was. -/
theorem registersWrittenAsTabled : Obligations.RegistersWrittenAsTabled := by
  unfold Obligations.RegistersWrittenAsTabled
  intro i s t h
  cases i with
  | ldByte | addByte | ldReg | andReg | rnd | ldFromDT => exact loadReg_keepsRegs h
  | addReg | subReg => exact loadFlagAndReg_keepsRegs h
  | drw x y n =>
    intro r hr
    have other : regVF ≠ r := fun e => hr (by simp [regsWritten, e])
    exact (execDrw_readReg h r).trans (if_neg other)
  | ret | call | sknp => exact fun r _ => State.readReg_congr (exec_keepsData h rfl).V r
  | _ => cases h; exact fun _ _ => rfl

theorem flagByte_eq_zero_or_one (b : Bool) : flagByte b = 0 ∨ flagByte b = 1 := by
  cases b
  · exact .inl rfl
  · exact .inr rfl

/-- Settles O41: the three write a flag byte, and the frame of the other instructions is that of O40. -/
theorem flagWrittenByThree : Obligations.FlagWrittenByThree := by
  unfold Obligations.FlagWrittenByThree
  intro i s t h
  refine ⟨?flag, registersWrittenAsTabled i s t h regVF⟩
  case flag =>
    rintro (⟨x, y, hx, rfl | rfl⟩ | ⟨x, y, n, rfl⟩)
    · rw [loadFlagAndReg_flag hx h]; exact flagByte_eq_zero_or_one _
    · rw [loadFlagAndReg_flag hx h]; exact flagByte_eq_zero_or_one _
    · rw [execDrw_readReg h, if_pos rfl]; exact flagByte_eq_zero_or_one _

/-! ### pc after an instruction (10_state.md R27) -/

theorem State.nextPc_toNat (s : State) : s.nextPc.toNat = (s.pc.toNat + 2) % 65536 := BitVec.toNat_add ..

theorem State.skipPc_toNat (s : State) : s.skipPc.toNat = (s.pc.toNat + 4) % 65536 := BitVec.toNat_add ..

theorem zext16_toNat (nnn : BitVec 12) : (zext16 nnn).toNat = nnn.toNat :=
  BitVec.toNat_setWidth_of_le (by decide)

/-- The target of JP V0 is the exact sum (40_control_system.md R105). -/
theorem State.jumpV0Target_toNat (s : State) (nnn : BitVec 12) :
    (s.jumpV0Target nnn).toNat = (s.readReg 0).toNat + nnn.toNat := by
  have offset := (s.readReg 0).isLt
  have base := nnn.isLt
  rw [State.jumpV0Target, BitVec.toNat_ofNat]
  exact Nat.mod_eq_of_lt (by omega)

/-- pc after a skip with the condition `c`. -/
theorem State.skip_toNat (s : State) (c : Bool) :
    (if c then s.skipPc else s.nextPc).toNat = (s.pc.toNat + if c then 4 else 2) % 65536 := by
  cases c
  · exact s.nextPc_toNat
  · exact s.skipPc_toNat

/-- Settles O42: an error leaves pc, and each instruction that completes has its row of the table. -/
theorem pcAfterEveryInstruction : Obligations.PcAfterEveryInstruction := by
  unfold Obligations.PcAfterEveryInstruction
  refine exec_induction (fun i s t => (t.report = .ok → t.pc.toNat = pcAfter s i) ∧ (t.report ≠ .ok → t.pc = s.pc))
    ?ret ?retError ?call ?callError ?sknp ?sknpError ?rest
  case ret => exact fun s _ => ⟨fun _ => rfl, fun ne => absurd rfl ne⟩
  case retError => exact fun s _ => ⟨nofun, fun _ => rfl⟩
  case call => exact fun nnn s _ => ⟨fun _ => zext16_toNat nnn, fun ne => absurd rfl ne⟩
  case callError => exact fun nnn s _ => ⟨nofun, fun _ => rfl⟩
  case sknp =>
    refine fun x s hx => ⟨fun _ => ?_, fun ne => absurd rfl ne⟩
    have level : s.keys[(s.readReg x).toNat]? = some s.keys[(s.readReg x).toNat] := Vector.getElem?_eq_getElem hx
    exact (s.skip_toNat _).trans (by simp [pcAfter, level])
  case sknpError => exact fun x s _ => ⟨nofun, fun _ => rfl⟩
  case rest =>
    intro i s t h hret hcall hsknp
    obtain ⟨completes, -⟩ := exec_keepsLatch h hret hcall hsknp
    refine ⟨fun _ => ?_, fun ne => absurd completes ne⟩
    cases i with
    | ret => exact absurd rfl hret
    | call nnn => exact absurd rfl (hcall nnn)
    | sknp x => exact absurd rfl (hsknp x)
    | sys nnn | jp nnn => cases h; exact zext16_toNat nnn
    | jpV0 nnn => cases h; exact s.jumpV0Target_toNat nnn
    | seByte x kk => cases h; exact (s.skip_toNat _).trans (by simp [pcAfter, BitVec.toNat_inj])
    | sneByte x kk => cases h; exact (s.skip_toNat _).trans (by simp [pcAfter, BitVec.toNat_inj])
    | _ => cases h; exact s.nextPc_toNat

/-! ### What changes a part of the state: the step runs an instruction that writes it -/

/-- A step that changes any data or the stack runs the instruction that its word decodes to: the report of a
halted machine and a decode failure change neither (60_exceptions.md R183, R185). -/
theorem step_runs_of_changed {s t : State} (h : step s = .next t) (changed : ¬ KeepsDataAndStack s t) :
    ∃ i u, decode s.fetch = .ok i ∧ exec i s = .next u ∧ t = u.consumeInputs := by
  rcases step_cases s with ⟨-, e⟩ | ⟨-, -, e⟩ | ⟨i, -, hd, e⟩ <;> rw [e] at h
  · cases h
    exact absurd ⟨⟨rfl, rfl, rfl, rfl, rfl, rfl, rfl, rfl⟩, rfl, rfl⟩ changed
  · cases h
    refine absurd ?_ changed
    rcases raiseDecodeFailure_cases s with ⟨-, e⟩ | ⟨-, e⟩ <;> rw [e] <;>
      exact ⟨⟨rfl, rfl, rfl, rfl, rfl, rfl, rfl, rfl⟩, rfl, rfl⟩
  · obtain ⟨u, hu, rfl⟩ := afterExec_next h
    exact ⟨i, u, hd, hu, rfl⟩

theorem exec_stack_changed {i : Instr} {s t : State} (h : exec i s = .next t)
    (ne : t.sp ≠ s.sp ∨ t.stack ≠ s.stack) : i = .ret ∨ ∃ nnn, i = .call nnn := by
  have unmoved {p : Prop} (hsp : t.sp = s.sp) (hst : t.stack = s.stack) : p :=
    ne.elim (absurd hsp) (absurd hst)
  cases i with
  | ret => exact .inl rfl
  | call nnn => exact .inr ⟨nnn, rfl⟩
  | sknp =>
    have k := execSknp_keepsDataAndStack h
    exact unmoved k.sp k.stack
  | _ => cases h; exact unmoved rfl rfl

/-- Settles O43: no other instruction writes sp or a slot, and a step that runs none writes neither. -/
theorem onlyCallAndRetMoveStack : Obligations.OnlyCallAndRetMoveStack := by
  unfold Obligations.OnlyCallAndRetMoveStack
  intro s t h ne
  obtain ⟨i, u, hd, hu, rfl⟩ :=
    step_runs_of_changed h fun k => ne.elim (absurd k.sp) (absurd k.stack)
  simp only [hd, Except.ok.injEq]
  exact exec_stack_changed hu ne

theorem exec_DT_changed {i : Instr} {s t : State} (h : exec i s = .next t) (ne : t.DT ≠ s.DT) :
    ∃ x, i = .ldDT x ∧ t.DT = s.readReg x := by
  cases i with
  | ldDT x => cases h; exact ⟨x, rfl, rfl⟩
  | ret | call | sknp => exact absurd (exec_keepsData h rfl).DT ne
  | _ => cases h; exact absurd rfl ne

theorem exec_ST_changed {i : Instr} {s t : State} (h : exec i s = .next t) (ne : t.ST ≠ s.ST) :
    ∃ x, i = .ldST x ∧ t.ST = s.readReg x := by
  cases i with
  | ldST x => cases h; exact ⟨x, rfl, rfl⟩
  | ret | call | sknp => exact absurd (exec_keepsData h rfl).ST ne
  | _ => cases h; exact absurd rfl ne

/-- Settles O44: no other instruction writes a timer, and a step that runs none leaves both. -/
theorem stepNeverCountsTimers : Obligations.StepNeverCountsTimers := by
  unfold Obligations.StepNeverCountsTimers
  intro s t h
  refine ⟨fun ne => ?delay, fun ne => ?sound⟩
  case delay =>
    obtain ⟨i, u, hd, hu, rfl⟩ := step_runs_of_changed h fun k => ne k.DT
    simp only [hd, Except.ok.injEq, State.consumeInputs_DT]
    exact exec_DT_changed hu ne
  case sound =>
    obtain ⟨i, u, hd, hu, rfl⟩ := step_runs_of_changed h fun k => ne k.ST
    simp only [hd, Except.ok.injEq, State.consumeInputs_ST]
    exact exec_ST_changed hu ne

theorem exec_disp_changed {i : Instr} {s t : State} (h : exec i s = .next t) (ne : t.disp ≠ s.disp) :
    i = .cls ∨ ∃ x y n, i = .drw x y n := by
  cases i with
  | cls => exact .inl rfl
  | drw x y n => exact .inr ⟨x, y, n, rfl⟩
  | ret | call | sknp => exact absurd (exec_keepsData h rfl).disp ne
  | _ => cases h; exact absurd rfl ne

theorem exec_drawNeeded_changed {i : Instr} {s t : State} (h : exec i s = .next t)
    (ne : t.drawNeeded ≠ s.drawNeeded) : t.drawNeeded = true ∧ ∃ x y n, i = .drw x y n := by
  cases i with
  | drw x y n => cases h; exact ⟨rfl, x, y, n, rfl⟩
  | ret | call | sknp => exact absurd (exec_keepsData h rfl).drawNeeded ne
  | _ => cases h; exact absurd rfl ne

/-- Settles O45: no other instruction writes the display or draw_needed, and a step that runs none leaves both. -/
theorem onlyClsAndDrwChangeDisplay : Obligations.OnlyClsAndDrwChangeDisplay := by
  unfold Obligations.OnlyClsAndDrwChangeDisplay
  intro s t h
  refine ⟨fun ne => ?display, fun ne => ?flag⟩
  case display =>
    obtain ⟨i, u, hd, hu, rfl⟩ := step_runs_of_changed h fun k => ne k.disp
    simp only [hd, Except.ok.injEq]
    exact exec_disp_changed hu ne
  case flag =>
    obtain ⟨i, u, hd, hu, rfl⟩ := step_runs_of_changed h fun k => ne k.drawNeeded
    simp only [hd, Except.ok.injEq, State.consumeInputs_drawNeeded]
    exact exec_drawNeeded_changed hu ne

/-! ### What changes memory (20_memory.md R54) -/

/-- A store from I on changes no byte but those at its addresses. -/
theorem State.storeBytes_keepsMem (s : State) (bs : List Byte) :
    KeepsMem s (s.storeBytes s.dataBase bs) (storedAddresses s bs.length) := by
  intro a ha
  refine State.memRead_storeBytes_other s s.dataBase a bs fun k hk e => ha ?_
  exact List.mem_map.2 ⟨k, List.mem_range.2 hk, e⟩

theorem State.regBlock_length (s : State) (x : Reg) : (s.regBlock x).length = x.val + 1 := by
  have := x.isLt
  simp only [State.regBlock, List.length_take, Vector.length_toList]
  omega

theorem exec_memRead_changed {i : Instr} {s t : State} {a : Nat} (h : exec i s = .next t)
    (ne : t.memRead a ≠ s.memRead a) :
    (∃ x, i = .ldB x ∧ a % 4096 ∈ storedAddresses s 3) ∨
    (∃ x, i = .ldMem x ∧ a % 4096 ∈ storedAddresses s (x.val + 1)) := by
  have kept {p : Prop} (k : KeepsData s t) : p := absurd (State.memRead_congr k.mem k.params a) ne
  cases i with
  | ldB x =>
    cases h
    exact .inl ⟨x, rfl, by_contra fun ha => ne (s.storeBytes_keepsMem (bcdDigits (s.readReg x)) a ha)⟩
  | ldMem x =>
    cases h
    refine .inr ⟨x, rfl, by_contra fun ha => ne (s.storeBytes_keepsMem (s.regBlock x) a ?_)⟩
    rwa [State.regBlock_length]
  | ret | call | sknp => exact kept (exec_keepsData h rfl)
  | _ => cases h; exact absurd rfl ne

/-- Settles O46: a store leaves every address but its own, no other instruction writes memory, and a step that runs none
leaves it. -/
theorem onlyStoresChangeMemory : Obligations.OnlyStoresChangeMemory := by
  unfold Obligations.OnlyStoresChangeMemory
  intro s t a h ne
  obtain ⟨i, u, hd, hu, rfl⟩ :=
    step_runs_of_changed h fun k => ne (State.memRead_congr k.mem k.params a)
  simp only [hd, Except.ok.injEq]
  exact exec_memRead_changed hu ne

/-! ### What changes I (10_state.md R25) -/

theorem State.storeAdvancesI_of_indexAfterStore_ne {s : State} {x : Reg} (ne : s.indexAfterStore x ≠ s.I) :
    s.params.storeAdvancesI = true := by
  by_contra off
  exact ne (if_neg off)

theorem exec_I_changed {i : Instr} {s t : State} (h : exec i s = .next t) (ne : t.I ≠ s.I) :
    (∃ nnn, i = .ldI nnn) ∨ (∃ x, i = .addI x) ∨ (∃ x, i = .ldF x) ∨
      (s.params.storeAdvancesI = true ∧ ∃ x, i = .ldMem x) := by
  cases i with
  | ldI nnn => exact .inl ⟨nnn, rfl⟩
  | addI x => exact .inr (.inl ⟨x, rfl⟩)
  | ldF x => exact .inr (.inr (.inl ⟨x, rfl⟩))
  | ldMem x => cases h; exact .inr (.inr (.inr ⟨s.storeAdvancesI_of_indexAfterStore_ne ne, x, rfl⟩))
  | ret | call | sknp => exact absurd (exec_keepsData h rfl).I ne
  | _ => cases h; exact absurd rfl ne

/-- Settles O47: no other instruction writes I, LD [I] writes it back unchanged where the parameter is off, and a step
that runs none leaves it. -/
theorem onlyIndexInstructionsChangeI : Obligations.OnlyIndexInstructionsChangeI := by
  unfold Obligations.OnlyIndexInstructionsChangeI
  intro s t h ne
  obtain ⟨i, u, hd, hu, rfl⟩ := step_runs_of_changed h fun k => ne k.I
  simp only [hd, Except.ok.injEq]
  exact exec_I_changed hu ne

/-! ### The outputs that no instruction reads (10_state.md R30, R34, R35) -/

/-- The state as a program sees it: ST, draw_needed, cause, epc, eop and the outcome blanked. -/
def State.hideOutputs (s : State) : State :=
  { s with ST := 0, drawNeeded := false, cause := 0, epc := 0, eop := 0, report := .ok }

theorem sameButOutputs_iff (s t : State) : SameButOutputs s t ↔ t.hideOutputs = s.hideOutputs := by
  constructor
  · intro h
    rw [h]
    rfl
  · intro h
    exact congrArg (fun u : State => { u with ST := t.ST, drawNeeded := t.drawNeeded, cause := t.cause,
                                              epc := t.epc, eop := t.eop, report := t.report }) h

theorem State.push_hideOutputs (s : State) (v : Word) :
    s.hideOutputs.push v = (s.push v).map State.hideOutputs := by
  unfold State.push
  rw [apply_dite (Option.map _)]
  rfl

theorem State.pop_hideOutputs (s : State) :
    s.hideOutputs.pop = s.pop.map fun p => (p.1, p.2.hideOutputs) := by
  unfold State.pop
  rw [apply_dite (Option.map _)]
  rfl

theorem execRet_hideOutputs (s : State) :
    mapNext State.hideOutputs (execRet s.hideOutputs) = mapNext State.hideOutputs (execRet s) := by
  unfold execRet
  rw [State.pop_hideOutputs]
  cases s.pop <;> rfl

theorem execCall_hideOutputs (nnn : BitVec 12) (s : State) :
    mapNext State.hideOutputs (execCall nnn s.hideOutputs) = mapNext State.hideOutputs (execCall nnn s) := by
  unfold execCall
  have next : s.hideOutputs.nextPc = s.nextPc := rfl
  rw [next, State.push_hideOutputs]
  cases s.push s.nextPc <;> rfl

theorem execSknp_hideOutputs (x : Reg) (s : State) :
    mapNext State.hideOutputs (execSknp x s.hideOutputs) = mapNext State.hideOutputs (execSknp x s) := by
  unfold execSknp
  have operand : s.hideOutputs.readReg x = s.readReg x := rfl
  have levels : s.hideOutputs.keys = s.keys := rfl
  simp only [operand, levels]
  split <;> rfl

/-- Blanking the outputs before an instruction changes nothing but the outputs after it. -/
theorem exec_hideOutputs (i : Instr) (s : State) :
    mapNext State.hideOutputs (exec i s.hideOutputs) = mapNext State.hideOutputs (exec i s) := by
  cases i with
  | ret => exact execRet_hideOutputs s
  | call nnn => exact execCall_hideOutputs nnn s
  | sknp x => exact execSknp_hideOutputs x s
  | _ => rfl

theorem raiseDecodeFailure_hideOutputs (s : State) :
    (raiseDecodeFailure s.hideOutputs).hideOutputs = (raiseDecodeFailure s).hideOutputs := by
  unfold raiseDecodeFailure
  have policy : s.hideOutputs.params = s.params := rfl
  rw [policy]
  split <;> rfl

/-- Using up the inputs and blanking the outputs do not touch the same fields. -/
theorem mapNext_hideOutputs_afterExec (r : Result) :
    mapNext State.hideOutputs (afterExec r) = afterExec (mapNext State.hideOutputs r) := by
  cases r <;> rfl

/-- Blanking the outputs before a step changes nothing but the outputs after it. -/
theorem step_hideOutputs (s : State) :
    mapNext State.hideOutputs (step s.hideOutputs) = mapNext State.hideOutputs (step s) := by
  unfold step
  have running : s.hideOutputs.halted = s.halted := rfl
  have fetched : s.hideOutputs.fetch = s.fetch := rfl
  rw [running, fetched]
  split
  · rfl
  · split
    · rw [mapNext_hideOutputs_afterExec, exec_hideOutputs, mapNext_hideOutputs_afterExec]
    · exact congrArg (fun u : State => Host.Outcome.next u.consumeInputs) (raiseDecodeFailure_hideOutputs s)

/-- Settles O50: machines that agree once their outputs are blanked agree so after a step. -/
theorem outputsInvisibleToProgram : Obligations.OutputsInvisibleToProgram := by
  unfold Obligations.OutputsInvisibleToProgram
  intro s t same
  obtain ⟨s', hs⟩ := step_completes s
  obtain ⟨t', ht⟩ := step_completes t
  refine ⟨s', t', hs, ht, (sameButOutputs_iff s' t').2 ?_⟩
  have blanked : mapNext State.hideOutputs (step t) = mapNext State.hideOutputs (step s) := by
    rw [← step_hideOutputs t, (sameButOutputs_iff s t).1 same, step_hideOutputs s]
  rw [hs, ht] at blanked
  exact Host.Outcome.next.inj blanked

end Sys2Proof.Machine

namespace Sys2Proof

/-! ### The decoder inverts the encoder (30_encoding.md rules R71 to R74) -/

/-- SYS has its word to itself where its low byte is neither that of CLS nor that of RET (30_encoding.md R74). -/
theorem sysOperandOk_iff (nnn : BitVec 12) :
    sysOperandOk nnn = true ↔ nnn.extractLsb' 0 8 ≠ clsLow ∧ nnn.extractLsb' 0 8 ≠ retLow := by
  simp only [sysOperandOk, Bool.and_eq_true, bne_iff_ne]

/-- The word of a well-formed instruction decodes to it: its format has put the keys and the operands where the
decoder reads them. -/
theorem decode_encode {i : Instr} (wf : WellFormed i = true) : decode (encode i) = .ok i := by
  cases i with
  | sys nnn =>
    obtain ⟨notCls, notRet⟩ := (sysOperandOk_iff nnn).1 wf
    calc decode (encode (.sys nnn))
        = decodeGroup0 (wordNNN 0x0 nnn) := by simp [decode, encode]
      _ = .ok (.sys nnn) := by
        rw [decodeGroup0, fieldKK_wordNNN, fieldNNN_wordNNN, if_neg notCls, if_neg notRet]
  | cls | ret => decide
  | ldReg | andReg | addReg | subReg => simp [decode, encode, decodeGroup8]
  | sknp => simp [decode, encode, decodeGroupE]
  | ldFromDT | ldDT | ldST | addI | ldF | ldB | ldMem => simp [decode, encode, decodeGroupF]
  | _ => simp [decode, encode]

end Sys2Proof

namespace Sys2Proof.Machine

/-! ### The fetch and the step at a placed word (20_memory.md rules R52, R61) -/

/-- Settles O7: the word is put together from the bytes that `memRead` gives at pc and at pc + 1. -/
theorem fetchIsBigEndian : Obligations.FetchIsBigEndian := by
  unfold Obligations.FetchIsBigEndian
  exact fun s => wordOfBytes_toNat (s.memRead s.pc.toNat) (s.memRead (s.pc.toNat + 1))

/-- What a step adds around an instruction is that the inputs are used up (30_encoding.md R75). -/
theorem afterExec_eq_mapNext (r : Result) : afterExec r = mapNext inputsUsed r := by
  cases r <;> rfl

/-- A running machine at a word that decodes runs its instruction (30_encoding.md R75). -/
theorem step_of_decode {s : State} {i : Instr} (run : s.halted = false) (hd : decode s.fetch = .ok i) :
    step s = mapNext inputsUsed (exec i s) := by
  have unhalted : ¬ s.halted = true := by simp [run]
  rw [step, if_neg unhalted, hd]
  exact afterExec_eq_mapNext (exec i s)

/-- A word is its own table word: placing it by number places it. -/
theorem State.withFetchWord_toNat (s : State) (w : Word) : s.withFetchWord 16 w.toNat = s.placeWord w :=
  congrArg s.placeWord (tableWord_toNat w)

/-- Settles O12: the placed word is fetched, decodes to the instruction it encodes, and the machine is running. -/
theorem storedInstructionIsRun : Obligations.StoredInstructionIsRun := by
  unfold Obligations.StoredInstructionIsRun
  intro s i wf
  rw [State.withFetchWord_toNat]
  have running : (s.placeWord (encode i)).halted = false := rfl
  have decoded : decode (s.placeWord (encode i)).fetch = .ok i := by
    rw [State.fetch_placeWord, decode_encode wf]
  exact step_of_decode running decoded

end Sys2Proof.Machine

namespace Sys2Proof

/-! ### A word from its fields, and its keys as numbers (30_encoding.md rules R71, R72) -/

/-- Format NNN put together from the fields of a word that has its top nibble. -/
theorem wordNNN_fieldNNN {t : BitVec 4} {w : Word} (top : (topNibble w).toNat = t.toNat) :
    wordNNN t (fieldNNN w) = w := by
  rw [topNibble_toNat] at top
  apply BitVec.eq_of_toNat_eq
  rw [wordNNN_toNat, fieldNNN_toNat]
  omega

/-- Formats XKK, X and FIXED put together from the fields of a word that has their top nibble and low byte. -/
theorem wordXKK_fieldX {t : BitVec 4} {kk : Byte} {w : Word} (top : (topNibble w).toNat = t.toNat)
    (low : fieldKK w = kk) : wordXKK t (fieldX w) kk = w := by
  rw [topNibble_toNat] at top
  subst low
  apply BitVec.eq_of_toNat_eq
  rw [wordXKK_toNat, fieldX_val, fieldKK_toNat]
  omega

/-- Formats XY and XYN put together from the fields of a word that has their top and low nibble. -/
theorem wordXYN_fieldX_fieldY {t n : BitVec 4} {w : Word} (top : (topNibble w).toNat = t.toNat)
    (low : fieldN w = n) : wordXYN t (fieldX w) (fieldY w) n = w := by
  rw [← low, ← BitVec.eq_of_toNat_eq top]
  exact wordXYN_fields w

theorem fieldKK_eq_iff (w : Word) (kk : Byte) : fieldKK w = kk ↔ w.toNat % 256 = kk.toNat := by
  rw [← fieldKK_toNat, BitVec.toNat_inj]

theorem fieldN_eq_iff (w : Word) (n : BitVec 4) : fieldN w = n ↔ w.toNat % 16 = n.toNat := by
  rw [← fieldN_toNat, BitVec.toNat_inj]

/-! ### The masks of the opcode map on any word (30_encoding.md rule R78) -/

theorem and_F000 (w : Word) : w &&& 0xF000 = wordNNN (topNibble w) 0 := by
  calc w &&& 0xF000
      = wordXYN (topNibble w) (fieldX w) (fieldY w) (fieldN w) &&& 0xF000 := by rw [wordXYN_fields]
    _ = wordXYN (topNibble w) 0 0 0 := wordXYN_and_F000 ..
    _ = wordNNN (topNibble w) 0 := by
      apply BitVec.eq_of_toNat_eq
      simp [wordXYN_toNat, wordNNN_toNat]

theorem and_F00F (w : Word) : w &&& 0xF00F = wordXYN (topNibble w) 0 0 (fieldN w) := by
  calc w &&& 0xF00F
      = wordXYN (topNibble w) (fieldX w) (fieldY w) (fieldN w) &&& 0xF00F := by rw [wordXYN_fields]
    _ = wordXYN (topNibble w) 0 0 (fieldN w) := wordXYN_and_F00F ..

theorem and_F0FF (w : Word) : w &&& 0xF0FF = wordXKK (topNibble w) 0 (fieldKK w) := by
  calc w &&& 0xF0FF
      = wordXYN (topNibble w) (fieldX w) (fieldY w) (fieldN w) &&& 0xF0FF := by rw [wordXYN_fields]
    _ = wordXYN (topNibble w) 0 (fieldY w) (fieldN w) := wordXYN_and_F0FF ..
    _ = wordXKK (topNibble w) 0 (fieldKK w) := by
      apply BitVec.eq_of_toNat_eq
      rw [wordXYN_toNat, wordXKK_toNat, fieldY_val, fieldN_toNat, fieldKK_toNat]
      omega

/-- A masked word has the keys of its row: what the mask keeps, as numbers. -/
theorem key_of_and_F000 {w m : Word} (h : w &&& 0xF000 = m) : w.toNat / 4096 = m.toNat / 4096 := by
  rw [← topNibble_toNat, ← topNibble_toNat, ← h, and_F000, topNibble_wordNNN]

theorem keys_of_and_F00F {w m : Word} (h : w &&& 0xF00F = m) :
    w.toNat / 4096 = m.toNat / 4096 ∧ w.toNat % 16 = m.toNat % 16 := by
  rw [← topNibble_toNat, ← topNibble_toNat, ← fieldN_toNat, ← fieldN_toNat, ← h, and_F00F,
    topNibble_wordXYN, fieldN_wordXYN]
  exact ⟨rfl, rfl⟩

theorem keys_of_and_F0FF {w m : Word} (h : w &&& 0xF0FF = m) :
    w.toNat / 4096 = m.toNat / 4096 ∧ w.toNat % 256 = m.toNat % 256 := by
  rw [← topNibble_toNat, ← topNibble_toNat, ← fieldKK_toNat, ← fieldKK_toNat, ← h, and_F0FF,
    topNibble_wordXKK, fieldKK_wordXKK]
  exact ⟨rfl, rfl⟩

/-! ### The instruction a word decodes to (30_encoding.md rules R73, R74) -/

/-- `w` is a word of `i`, which has one: the word that the encoder gives, but for bits 11:8 of CLS and RET
(30_encoding.md R74). -/
def IsWordOf (w : Word) (i : Instr) : Prop :=
  WellFormed i = true ∧ (encode i = w ∨ ((i = .cls ∨ i = .ret) ∧ encode i = w &&& 0xF0FF))

theorem isWordOf_of_decodeGroup0 {w : Word} {i : Instr} (top : (topNibble w).toNat = 0x0)
    (h : decodeGroup0 w = .ok i) : IsWordOf w i := by
  have zero : topNibble w = 0x0 := BitVec.eq_of_toNat_eq top
  unfold decodeGroup0 at h
  split at h
  next isCls =>
    cases h
    exact ⟨rfl, .inr ⟨.inl rfl, by rw [and_F0FF, zero, isCls, encode]⟩⟩
  next notCls =>
    split at h
    next isRet =>
      cases h
      exact ⟨rfl, .inr ⟨.inr rfl, by rw [and_F0FF, zero, isRet, encode]⟩⟩
    next notRet =>
      cases h
      have word : wordNNN 0x0 (fieldNNN w) = w := wordNNN_fieldNNN top
      have low : (fieldNNN w).extractLsb' 0 8 = fieldKK w := by rw [← fieldKK_wordNNN 0x0, word]
      exact ⟨(sysOperandOk_iff _).2 (by rw [low]; exact ⟨notCls, notRet⟩), .inl word⟩

theorem isWordOf_of_decodeGroup8 {w : Word} {i : Instr} (top : (topNibble w).toNat = 0x8)
    (h : decodeGroup8 w = .ok i) : IsWordOf w i := by
  unfold decodeGroup8 at h
  (repeat' split at h) <;> cases h <;> exact ⟨rfl, .inl (wordXYN_fieldX_fieldY top ‹_›)⟩

theorem isWordOf_of_decodeGroupE {w : Word} {i : Instr} (top : (topNibble w).toNat = 0xE)
    (h : decodeGroupE w = .ok i) : IsWordOf w i := by
  unfold decodeGroupE at h
  split at h <;> cases h
  exact ⟨rfl, .inl (wordXKK_fieldX top ‹_›)⟩

theorem isWordOf_of_decodeGroupF {w : Word} {i : Instr} (top : (topNibble w).toNat = 0xF)
    (h : decodeGroupF w = .ok i) : IsWordOf w i := by
  unfold decodeGroupF at h
  (repeat' split at h) <;> cases h <;> exact ⟨rfl, .inl (wordXKK_fieldX top ‹_›)⟩

/-- A word that decodes is a word of its instruction: the top nibble selects the group, and the fields that the
decoder read, put together, are the word. -/
theorem isWordOf_of_decode {w : Word} {i : Instr} (h : decode w = .ok i) : IsWordOf w i := by
  unfold decode at h
  split at h
  case h_1 top => exact isWordOf_of_decodeGroup0 top h
  case h_8 top => exact isWordOf_of_decodeGroup8 top h
  case h_12 top => cases h; exact ⟨rfl, .inl (wordXYN_fieldX_fieldY top rfl)⟩
  case h_13 top => exact isWordOf_of_decodeGroupE top h
  case h_14 top => exact isWordOf_of_decodeGroupF top h
  case h_15 => cases h
  case h_2 top | h_3 top | h_9 top | h_10 top => cases h; exact ⟨rfl, .inl (wordNNN_fieldNNN top)⟩
  case h_4 top | h_5 top | h_6 top | h_7 top | h_11 top =>
    cases h
    exact ⟨rfl, .inl (wordXKK_fieldX top rfl)⟩

end Sys2Proof

namespace Sys2Proof.Machine

/-! ### The opcode map (30_encoding.md rule R78) -/

/-- The word of an instruction meets the mask and match of its row. -/
theorem encode_and_mask (i : Instr) : encode i &&& (opcodeRow i).2 = (opcodeRow i).1 := by
  cases i with
  | cls | ret => decide
  | sys | jp | call | ldI | jpV0 => simp only [encode, opcodeRow, and_F000, topNibble_wordNNN]; decide
  | seByte | sneByte | ldByte | addByte | rnd =>
    simp only [encode, opcodeRow, and_F000, topNibble_wordXKK]; decide
  | drw => simp only [encode, opcodeRow, and_F000, topNibble_wordXYN]; decide
  | ldReg | andReg | addReg | subReg =>
    simp only [encode, opcodeRow, and_F00F, topNibble_wordXYN, fieldN_wordXYN]; decide
  | sknp | ldFromDT | ldDT | ldST | addI | ldF | ldB | ldMem =>
    simp only [encode, opcodeRow, and_F0FF, topNibble_wordXKK, fieldKK_wordXKK]; decide

/-- Only SYS has the row that yields to CLS and RET. -/
theorem eq_sys_of_opcodeRow {i : Instr} (h : opcodeRow i = (0x0000, 0xF000)) : ∃ nnn, i = .sys nnn := by
  cases i with
  | sys nnn => exact ⟨nnn, rfl⟩
  | _ => simp [opcodeRow] at h

/-- The word of a well-formed instruction selects its row. -/
theorem selectsRow_encode {i : Instr} (wf : WellFormed i = true) : SelectsRow (encode i) i := by
  refine ⟨encode_and_mask i, fun row => ?_⟩
  obtain ⟨nnn, rfl⟩ := eq_sys_of_opcodeRow row
  obtain ⟨notCls, notRet⟩ := (sysOperandOk_iff nnn).1 wf
  rw [← fieldKK_wordNNN 0x0, Ne, fieldKK_eq_iff] at notCls notRet
  exact ⟨notCls, notRet⟩

/-- A word of an instruction selects its row: the mask of CLS and RET drops the bits they ignore. -/
theorem selectsRow_of_isWordOf {w : Word} {i : Instr} (h : IsWordOf w i) : SelectsRow w i := by
  obtain ⟨wf, rfl | ⟨rfl | rfl, masked⟩⟩ := h
  · exact selectsRow_encode wf
  · exact ⟨masked.symm, fun row => absurd row (by decide)⟩
  · exact ⟨masked.symm, fun row => absurd row (by decide)⟩

/-- A word that selects a row decodes to an instruction of it: the keys that the mask keeps are those that the
decoder looks at. -/
theorem decode_of_selectsRow {w : Word} {i : Instr} (h : SelectsRow w i) :
    ∃ j, decode w = .ok j ∧ opcodeRow j = opcodeRow i := by
  obtain ⟨masked, yields⟩ := h
  cases i with
  | sys =>
    have top := key_of_and_F000 masked
    obtain ⟨notCls, notRet⟩ := yields rfl
    simp [decode, decodeGroup0, topNibble_toNat, fieldKK_eq_iff, opcodeRow, top, notCls, notRet]
  | cls | ret =>
    obtain ⟨top, low⟩ := keys_of_and_F0FF masked
    simp [decode, decodeGroup0, topNibble_toNat, fieldKK_eq_iff, opcodeRow, top, low]
  | ldReg | andReg | addReg | subReg =>
    obtain ⟨top, low⟩ := keys_of_and_F00F masked
    simp [decode, decodeGroup8, topNibble_toNat, fieldN_eq_iff, opcodeRow, top, low]
  | sknp =>
    obtain ⟨top, low⟩ := keys_of_and_F0FF masked
    simp [decode, decodeGroupE, topNibble_toNat, fieldKK_eq_iff, opcodeRow, top, low]
  | ldFromDT | ldDT | ldST | addI | ldF | ldB | ldMem =>
    obtain ⟨top, low⟩ := keys_of_and_F0FF masked
    simp [decode, decodeGroupF, topNibble_toNat, fieldKK_eq_iff, opcodeRow, top, low]
  | _ =>
    have top := key_of_and_F000 masked
    simp [decode, topNibble_toNat, opcodeRow, top]

/-! ### The illegal words (30_encoding.md rule R79) -/

theorem decodeGroup0_ne_error (w : Word) (r : DecodeReject) : decodeGroup0 w ≠ .error r := by
  unfold decodeGroup0
  (repeat' split) <;> nofun

theorem decodeGroup8_error_iff (w : Word) :
    decodeGroup8 w = .error (.unknownOpcode w) ↔ w.toNat % 16 ∉ [0x0, 0x2, 0x4, 0x5] := by
  unfold decodeGroup8
  (repeat' split) <;> simp_all [fieldN_eq_iff]

theorem decodeGroupE_error_iff (w : Word) :
    decodeGroupE w = .error (.unknownOpcode w) ↔ w.toNat % 256 ≠ 0xA1 := by
  unfold decodeGroupE
  split <;> simp_all [fieldKK_eq_iff]

theorem decodeGroupF_error_iff (w : Word) :
    decodeGroupF w = .error (.unknownOpcode w) ↔
      w.toNat % 256 ∉ [0x07, 0x15, 0x18, 0x1E, 0x29, 0x33, 0x55] := by
  unfold decodeGroupF
  (repeat' split) <;> simp_all [fieldKK_eq_iff]

/-- A word is rejected just when it is in the table of illegal words: groups 5 and 9 are empty, and groups 8, E
and F reject what is none of their keys. -/
theorem decode_error_iff (w : Word) : decode w = .error (.unknownOpcode w) ↔ IllegalWord w := by
  unfold decode IllegalWord
  rw [← topNibble_toNat]
  have bound := (topNibble w).isLt
  split
  case h_1 top => simp [top, decodeGroup0_ne_error]
  case h_8 top => simp [top, decodeGroup8_error_iff]
  case h_13 top => simp [top, decodeGroupE_error_iff]
  case h_14 top => simp [top, decodeGroupF_error_iff]
  case h_15 =>
    have empty : (topNibble w).toNat = 0x5 ∨ (topNibble w).toNat = 0x9 := by grind
    exact iff_of_true rfl (empty.elim .inl fun nine => .inr (.inl nine))
  case h_2 top | h_3 top | h_4 top | h_5 top | h_6 top | h_7 top | h_9 top | h_10 top | h_11 top | h_12 top =>
    simp [top]

/-! ### The statements about the decoder and the encoder -/

/-- Settles O1: each format has put the keys and the operands where the decoder reads them. -/
theorem decodeOfEncode : Obligations.DecodeOfEncode := by
  unfold Obligations.DecodeOfEncode
  exact fun _ wf => decode_encode wf

/-- Settles O2: the fields that the decoder read, put together, are the word. -/
theorem encodeOfDecode : Obligations.EncodeOfDecode := by
  unfold Obligations.EncodeOfDecode
  exact fun _ _ h => isWordOf_of_decode h

/-- Settles O3: a word of an instruction selects its row, and a selected row decides the decoder's keys. -/
theorem decoderFollowsOpcodeMap : Obligations.DecoderFollowsOpcodeMap := by
  unfold Obligations.DecoderFollowsOpcodeMap
  exact ⟨fun _ _ h => selectsRow_of_isWordOf (isWordOf_of_decode h), fun _ _ h => decode_of_selectsRow h⟩

/-- Settles O4: the decoder rejects just the illegal words, so any other word decodes. -/
theorem illegalWordsRejected : Obligations.IllegalWordsRejected := by
  unfold Obligations.IllegalWordsRejected
  intro w
  refine ⟨(decode_error_iff w).2, fun legal => ?_⟩
  cases h : decode w with
  | ok i => exact ⟨i, rfl⟩
  | error r => exact absurd ((decode_error_iff w).1 (decode_error h ▸ h)) legal

/-- Settles O8: what decodes is well-formed, and the step only uses its inputs up around `exec`. -/
theorem stepRunsDecodedInstruction : Obligations.StepRunsDecodedInstruction := by
  unfold Obligations.StepRunsDecodedInstruction
  intro s i run h
  obtain ⟨wf, -⟩ := isWordOf_of_decode h
  exact ⟨wf, step_of_decode run h⟩

end Sys2Proof.Machine

namespace Sys2Proof

/-! ### The words of group 0 (40_control_system.md rules R100 to R102) -/

/-- The top nibble 0 selects group 0 (30_encoding.md R73). -/
theorem decode_wordXKK_group0 (x : Reg) (kk : Byte) :
    decode (wordXKK 0x0 x kk) = decodeGroup0 (wordXKK 0x0 x kk) := by
  simp [decode]

/-- Every word 0x0?E0 is a CLS: x is ignored (30_encoding.md R74). -/
theorem decode_wordXKK_cls (x : Reg) : decode (wordXKK 0x0 x clsLow) = .ok .cls := by
  rw [decode_wordXKK_group0, decodeGroup0, if_pos (fieldKK_wordXKK 0x0 x clsLow)]

/-- Every word 0x0?EE is a RET: x is ignored (30_encoding.md R74). -/
theorem decode_wordXKK_ret (x : Reg) : decode (wordXKK 0x0 x retLow) = .ok .ret := by
  have notCls : retLow ≠ clsLow := by decide
  rw [decode_wordXKK_group0, decodeGroup0, fieldKK_wordXKK, if_neg notCls, if_pos rfl]

/-- The operands of SYS, as numbers (40_control_system.md R100). -/
theorem wellFormed_sys_iff (nnn : BitVec 12) :
    WellFormed (.sys nnn) = true ↔ nnn.toNat % 256 ≠ 0xE0 ∧ nnn.toNat % 256 ≠ 0xEE := by
  have low : (nnn.extractLsb' 0 8).toNat = nnn.toNat % 256 := BitVec.extractLsb'_toNat ..
  rw [WellFormed, sysOperandOk_iff, ← low, Ne, Ne, ← BitVec.toNat_inj, ← BitVec.toNat_inj]
  rfl

end Sys2Proof

namespace Sys2Proof.Machine

/-! ### What the control instructions leave unchanged -/

theorem KeepsData.keepsRegs {s t : State} (k : KeepsData s t) : KeepsRegs s t [] :=
  fun r _ => State.readReg_congr k.V r

theorem KeepsData.keepsMem {s t : State} (k : KeepsData s t) : KeepsMem s t [] :=
  fun a _ => State.memRead_congr k.mem k.params a

/-- An instruction that only jumps (SYS, JP, JP V0) moves pc to its target and changes nothing else. -/
theorem exec_jumps {i : Instr} {s : State} {target : Word} {n : Nat}
    (jump : exec i s = complete (s.setPc target)) (value : target.toNat = n) :
    ∃ t, exec i s = .next t ∧ t.pc.toNat = n ∧ KeepsRegs s t [] ∧ KeepsMem s t [] ∧
      t = { s with pc := t.pc, report := .ok } :=
  ⟨_, jump, value, fun _ _ => rfl, fun _ _ => rfl, rfl⟩

/-! ### The statements about the control and system instructions -/

/-- Settles O13: the low byte E0 decodes to CLS whatever x is, and the display written is all zeros. -/
theorem clsClearsDisplay : Obligations.ClsClearsDisplay := by
  unfold Obligations.ClsClearsDisplay
  refine ⟨decode_wordXKK_cls, fun s => ⟨_, rfl, ?cells, s.nextPc_toNat, fun _ _ => rfl, fun _ _ => rfl, rfl⟩⟩
  case cells => exact fun _ _ => BitVec.getLsbD_zero

/-- Settles O14: RET either finds the stack empty or takes the slot below sp. -/
theorem retPopsIntoPc : Obligations.RetPopsIntoPc := by
  unfold Obligations.RetPopsIntoPc
  refine ⟨decode_wordXKK_ret, fun s => ?_⟩
  rcases execRet_cases s with ⟨empty, e⟩ | ⟨nonempty, e⟩
  · exact ⟨fun nonempty => absurd empty nonempty.ne', fun _ => e⟩
  · have k := execRet_keepsData e
    exact ⟨fun _ => ⟨_, e, rfl, rfl, k.keepsRegs, k.keepsMem, rfl⟩, fun empty => absurd empty nonempty.ne'⟩

/-- Settles O15: SYS has a word just where its operand is well-formed, and it jumps. -/
theorem sysJumps : Obligations.SysJumps := by
  unfold Obligations.SysJumps
  refine ⟨fun nnn notCls notRet => ?hasWord, fun nnn taken isSys => ?noWord,
    fun nnn s => exec_jumps rfl (zext16_toNat nnn)⟩
  case hasWord => exact decode_encode (i := .sys nnn) ((wellFormed_sys_iff nnn).2 ⟨notCls, notRet⟩)
  case noWord =>
    obtain ⟨wf, -⟩ := isWordOf_of_decode isSys
    obtain ⟨notCls, notRet⟩ := (wellFormed_sys_iff nnn).1 wf
    exact taken.elim notCls notRet

/-- Settles O16: the target is the operand, extended with zeros. -/
theorem jpJumps : Obligations.JpJumps := by
  unfold Obligations.JpJumps
  exact fun nnn => ⟨decode_encode (i := .jp nnn) rfl, fun s => exec_jumps rfl (zext16_toNat nnn)⟩

/-- Settles O17: CALL either finds the stack full or writes the slot at sp. -/
theorem callPushesReturnAddress : Obligations.CallPushesReturnAddress := by
  unfold Obligations.CallPushesReturnAddress
  refine fun nnn => ⟨decode_encode (i := .call nnn) rfl, fun s => ?_⟩
  rcases execCall_cases nnn s with ⟨full, e⟩ | ⟨room, e⟩
  · exact ⟨fun room => absurd full room.ne, fun _ => e⟩
  · have k := execCall_keepsData e
    refine ⟨fun _ => ⟨_, e, rfl, ?pushed, ?others, zext16_toNat nnn, k.keepsRegs, k.keepsMem, rfl⟩,
      fun full => absurd full room.ne⟩
    case pushed => exact (congrArg BitVec.toNat (Vector.getElem_set_self room)).trans s.nextPc_toNat
    case others => exact fun j hj ne => Vector.getElem_set_ne room hj ne.symm

/-- Settles O18: the target is the exact sum, which 16 bits hold. -/
theorem jpV0JumpsToSum : Obligations.JpV0JumpsToSum := by
  unfold Obligations.JpV0JumpsToSum
  exact fun nnn => ⟨decode_encode (i := .jpV0 nnn) rfl, fun s => exec_jumps rfl (s.jumpV0Target_toNat nnn)⟩

/-- Settles O39: the slot that RET takes (O14) is the one that CALL wrote (O17), and neither writes data. -/
theorem callThenRetReturns : Obligations.CallThenRetReturns := by
  unfold Obligations.CallThenRetReturns
  intro nnn s room
  obtain ⟨t, ht, raised, pushed, -⟩ := ((callPushesReturnAddress nnn).2 s).1 room
  obtain ⟨u, hu, lowered, popped, -⟩ := (retPopsIntoPc.2 t).1 (by omega)
  have slot : t.sp.val - 1 = s.sp.val := by omega
  have call := execCall_keepsData ht
  have ret := execRet_keepsData hu
  refine ⟨t, u, ht, hu, ?pc, Fin.ext (lowered.trans slot), ret.V.trans call.V, ret.I.trans call.I⟩
  case pc =>
    simp only [slot] at popped
    rw [popped, pushed]

end Sys2Proof.Machine

namespace Sys2Proof.Machine

/-! ### What the skip instructions do (41_skip.md rules R110 to R112) -/

/-- An instruction that skips on `c`, hence just where `P` holds, moves pc by 4 or by 2 and changes nothing else:
a skip is a jump to one of two targets. -/
theorem exec_skips {i : Instr} {s : State} {c : Bool} {P : Prop} [Decidable P] (skip : exec i s = skipIf c s)
    (cond : c = true ↔ P) :
    ∃ t, exec i s = .next t ∧ t.pc.toNat = (s.pc.toNat + if P then 4 else 2) % 65536 ∧
      KeepsRegs s t [] ∧ KeepsMem s t [] ∧ t = { s with pc := t.pc, report := .ok } :=
  exec_jumps skip ((s.skip_toNat c).trans (by simp only [cond]))

/-- An advance of 4 or of 2 ends at `pc + 4` just where it is the one of 4, whether or not the sum wraps. -/
theorem eq_add_four_iff_of_skip {pc pc' : Word} {P : Prop} [Decidable P]
    (advance : pc'.toNat = (pc.toNat + if P then 4 else 2) % 65536) : pc' = pc + 4 ↔ P := by
  rw [← BitVec.toNat_inj, advance, BitVec.toNat_add]
  have four : (4 : Word).toNat = 4 := rfl
  split
  case isTrue p => exact iff_of_true rfl p
  case isFalse np => exact iff_of_false (by omega) np

/-- SKNP with an index of a key skips on the level that this step sees (41_skip.md R112). -/
theorem exec_sknp_skips (x : Reg) (s : State) (h : (s.readReg x).toNat < 16) :
    ∃ t, exec (.sknp x) s = .next t ∧
      t.pc.toNat = (s.pc.toNat + if s.keys[(s.readReg x).toNat] = false then 4 else 2) % 65536 ∧
      KeepsRegs s t [] ∧ KeepsMem s t [] ∧ t = { s with pc := t.pc, report := .ok } := by
  rcases execSknp_cases x s with ⟨beyond, -⟩ | ⟨_, skip⟩
  · omega
  · exact exec_skips skip (iff_of_eq (Bool.not_eq_true' _))

/-! ### The statements about the skip instructions -/

/-- Settles O19: SE skips on the equality of the bytes, which is that of their values. -/
theorem seSkipsIfEqual : Obligations.SeSkipsIfEqual := by
  unfold Obligations.SeSkipsIfEqual
  exact fun x kk => ⟨decode_encode (i := .seByte x kk) rfl,
    fun s => exec_skips rfl (beq_iff_eq.trans BitVec.toNat_inj.symm)⟩

/-- Settles O20: SNE skips on the negation of the condition of SE (O19). -/
theorem sneSkipsIfDifferent : Obligations.SneSkipsIfDifferent := by
  unfold Obligations.SneSkipsIfDifferent
  refine fun x kk => ⟨decode_encode (i := .sneByte x kk) rfl, fun s => ?_⟩
  have cond : (s.readReg x != kk) = true ↔ ¬ (s.readReg x).toNat = kk.toNat :=
    bne_iff_ne.trans (not_congr BitVec.toNat_inj.symm)
  obtain ⟨t, ht, sne, frame⟩ := exec_skips (i := .sneByte x kk) rfl cond
  obtain ⟨u, hu, se, -⟩ := (seSkipsIfEqual x kk).2 s
  have oneSkips : t.pc = s.pc + 4 ↔ u.pc ≠ s.pc + 4 :=
    (eq_add_four_iff_of_skip sne).trans (not_congr (eq_add_four_iff_of_skip se)).symm
  rw [ite_not] at sne
  exact ⟨t, u, ht, hu, sne, oneSkips, frame⟩

/-- Settles O21: the index in Vx either names a key or is beyond them, and levels handed over are those seen. -/
theorem sknpSkipsIfNotHeld : Obligations.SknpSkipsIfNotHeld := by
  unfold Obligations.SknpSkipsIfNotHeld
  refine fun x => ⟨decode_encode (i := .sknp x) rfl, fun s => ⟨exec_sknp_skips x s, fun beyond => ?error, ?levels⟩⟩
  case error =>
    rcases execSknp_cases x s with ⟨_, e⟩ | ⟨within, -⟩
    · exact e
    · omega
  case levels =>
    intro keys r h
    obtain ⟨t, ht, pc, -⟩ := exec_sknp_skips x (s.withInputs keys r) h
    exact ⟨t, ht, pc⟩

end Sys2Proof.Machine

namespace Sys2Proof.Machine

/-! ### What an instruction that loads one register does (10_state.md rules R20 and R27) -/

theorem addByteMod_toNat (a b : Byte) : (addByteMod a b).toNat = (a.toNat + b.toNat) % 256 := BitVec.toNat_ofNat ..

/-- An instruction that loads Vx leaves the loaded value in it, advances pc and changes nothing else. -/
theorem exec_loads {i : Instr} {x : Reg} {v : Byte} {s : State} (load : exec i s = loadReg x v s) :
    ∃ t, exec i s = .next t ∧ t.readReg x = v ∧ t.pc.toNat = (s.pc.toNat + 2) % 65536 ∧
      KeepsRegs s t [x] ∧ KeepsMem s t [] ∧ t = { s with V := t.V, pc := t.pc, report := .ok } :=
  ⟨_, load, (State.readReg_writeReg s x x v).trans (if_pos rfl), s.nextPc_toNat, loadReg_keepsRegs rfl,
    fun _ _ => rfl, rfl⟩

/-! ### The masked draw of RND (42_immediate.md rule R122) -/

theorem State.maskedDraw_toNat (s : State) (kk : Byte) : (s.maskedDraw kk).toNat = s.draw.val &&& kk.toNat := by
  have fits : s.draw.val < 2 ^ 8 := s.draw.isLt.trans (by decide)
  rw [State.maskedDraw, BitVec.toNat_and, BitVec.toNat_ofNat, Nat.mod_eq_of_lt fits]

/-- A mask only clears bits, and the draw itself is below 0xFF. -/
theorem State.maskedDraw_ne_FF (s : State) (kk : Byte) : s.maskedDraw kk ≠ 0xFF := by
  intro full
  have value : s.draw.val &&& kk.toNat = 255 := (s.maskedDraw_toNat kk).symm.trans (congrArg BitVec.toNat full)
  have masked : s.draw.val &&& kk.toNat ≤ s.draw.val := Nat.and_le_left
  have bound := s.draw.isLt
  omega

theorem State.maskedDraw_zero (s : State) : s.maskedDraw 0 = 0 := BitVec.and_zero

/-- A value within the mask comes back when it is the draw itself. -/
theorem State.maskedDraw_of_draw {s : State} {v kk : Byte} (within : v &&& kk = v) (drawn : s.draw.val = v.toNat) :
    s.maskedDraw kk = v := by
  rw [State.maskedDraw, drawn, BitVec.ofNat_toNat, BitVec.setWidth_eq, within]

/-- Every byte but 0xFF is a draw. -/
theorem toNat_lt_of_ne_FF {v : Byte} (notFull : v ≠ 0xFF) : v.toNat < 255 := by
  bv_omega

/-! ### The statements about the register-immediate instructions -/

/-- Settles O22: the value loaded is the operand. -/
theorem ldByteLoads : Obligations.LdByteLoads := by
  unfold Obligations.LdByteLoads
  exact fun x kk => ⟨decode_encode (i := .ldByte x kk) rfl, fun _ => exec_loads rfl⟩

/-- Settles O23: the value loaded is the sum modulo 256, and Vx is the one register written. -/
theorem addByteWraps : Obligations.AddByteWraps := by
  unfold Obligations.AddByteWraps
  refine fun x kk => ⟨decode_encode (i := .addByte x kk) rfl, fun s => ?_⟩
  obtain ⟨t, ht, sum, frame⟩ := exec_loads (i := .addByte x kk) (s := s) rfl
  exact ⟨t, ht, sum ▸ addByteMod_toNat (s.readReg x) kk, frame⟩

/-- Settles O24: the value loaded is the masked draw, and a value within the mask is reached by drawing it. -/
theorem rndMasksTheDraw : Obligations.RndMasksTheDraw := by
  unfold Obligations.RndMasksTheDraw
  refine fun x kk => ⟨decode_encode (i := .rnd x kk) rfl, fun s => ?masks, fun v within notFull s keys => ?reaches⟩
  case masks =>
    obtain ⟨t, ht, value, frame⟩ := exec_loads (i := .rnd x kk) (s := s) rfl
    refine ⟨t, ht, value ▸ s.maskedDraw_toNat kk, value ▸ s.maskedDraw_ne_FF kk, fun zero => ?_, frame⟩
    rw [value, zero, s.maskedDraw_zero]
  case reaches =>
    obtain ⟨t, ht, value, -⟩ :=
      exec_loads (i := .rnd x kk) (s := s.withInputs keys ⟨v.toNat, toNat_lt_of_ne_FF notFull⟩) rfl
    exact ⟨_, t, ht, value.trans (State.maskedDraw_of_draw within rfl)⟩

end Sys2Proof.Machine

namespace Sys2Proof.Machine

/-! ### What an instruction that loads VF and one register does (43_register_alu.md rules R132 to R134) -/

theorem subByteMod_toNat (a b : Byte) : (subByteMod a b).toNat = (a.toNat + 256 - b.toNat) % 256 := by
  rw [subByteMod]
  bv_omega

theorem flagByte_decide (P : Prop) [Decidable P] : flagByte (decide P) = if P then 1 else 0 := by
  simp only [flagByte, decide_eq_true_eq]

/-- The result is the later of the two writes: Vx holds it, VF or not (10_state.md R24). -/
theorem loadFlagAndReg_result {x : Reg} {f v : Byte} {s t : State} (h : loadFlagAndReg x f v s = .next t) :
    t.readReg x = v := by
  cases h
  exact (State.readReg_writeReg (s.writeReg regVF f) x x v).trans (if_pos rfl)

/-- An instruction that writes the flag of `P` and then its result to Vx leaves both where x is not F and the
result alone where it is, advances pc and changes nothing else. -/
theorem exec_loadsFlagAndReg {i : Instr} {x : Reg} {P : Prop} [Decidable P] {v : Byte} {s : State} {n : Nat}
    (load : exec i s = loadFlagAndReg x (flagByte (decide P)) v s) (value : v.toNat = n) :
    ∃ t, exec i s = .next t ∧ (t.readReg x).toNat = n ∧ (x ≠ regVF → t.readReg regVF = if P then 1 else 0) ∧
      t.pc.toNat = (s.pc.toNat + 2) % 65536 ∧ KeepsRegs s t [x, regVF] ∧ KeepsMem s t [] ∧
      t = { s with V := t.V, pc := t.pc, report := .ok } :=
  ⟨_, load, (congrArg BitVec.toNat (loadFlagAndReg_result rfl)).trans value,
    fun notFlag => (loadFlagAndReg_flag notFlag rfl).trans (flagByte_decide P), s.nextPc_toNat,
    loadFlagAndReg_keepsRegs rfl, fun _ _ => rfl, rfl⟩

/-! ### The statements about the register-register instructions -/

/-- Settles O25: the value loaded is that of Vy. -/
theorem ldRegCopies : Obligations.LdRegCopies := by
  unfold Obligations.LdRegCopies
  exact fun x y => ⟨decode_encode (i := .ldReg x y) rfl, fun _ => exec_loads rfl⟩

/-- Settles O26: the value loaded is the conjunction, and Vx is the one register written. -/
theorem andRegIsBitwise : Obligations.AndRegIsBitwise := by
  unfold Obligations.AndRegIsBitwise
  refine fun x y => ⟨decode_encode (i := .andReg x y) rfl, fun s => ?_⟩
  obtain ⟨t, ht, conj, frame⟩ := exec_loads (i := .andReg x y) (s := s) rfl
  exact ⟨t, ht, fun _ => conj ▸ BitVec.getLsbD_and, frame⟩

/-- Settles O27: the flag and the result are the carry and the sum of the bytes read at the start. -/
theorem addRegSetsCarry : Obligations.AddRegSetsCarry := by
  unfold Obligations.AddRegSetsCarry
  exact fun x y => ⟨decode_encode (i := .addReg x y) rfl, fun s =>
    exec_loadsFlagAndReg rfl (addByteMod_toNat (s.readReg x) (s.readReg y))⟩

/-- Settles O28: the flag and the result are the strict comparison and the difference of the bytes read at the
start. -/
theorem subRegSetsNotBorrow : Obligations.SubRegSetsNotBorrow := by
  unfold Obligations.SubRegSetsNotBorrow
  exact fun x y => ⟨decode_encode (i := .subReg x y) rfl, fun s =>
    exec_loadsFlagAndReg rfl (subByteMod_toNat (s.readReg x) (s.readReg y))⟩

end Sys2Proof.Machine

namespace Sys2Proof.Machine

/-! ### What an instruction that loads I does (10_state.md rules R25 and R27) -/

theorem State.indexPlus_toNat (s : State) (x : Reg) :
    (s.indexPlus x).toNat = (s.I.toNat + (s.readReg x).toNat) % 65536 := BitVec.toNat_ofNat ..

/-- Five times a byte fits in I: all its 8 bits count (44_index_memory.md R142). -/
theorem glyphAddress_toNat (a : Byte) : (glyphAddress a).toNat = a.toNat * 5 := by
  have := a.isLt
  rw [glyphAddress, BitVec.toNat_ofNat, Nat.mod_eq_of_lt (by omega)]

/-- An instruction that loads I leaves the loaded value in it, advances pc and changes nothing else. -/
theorem exec_loadsIndex {i : Instr} {v : Word} {s : State} {n : Nat} (load : exec i s = loadIndex v s)
    (value : v.toNat = n) :
    ∃ t, exec i s = .next t ∧ t.I.toNat = n ∧ t.pc.toNat = (s.pc.toNat + 2) % 65536 ∧
      KeepsRegs s t [] ∧ KeepsMem s t [] ∧ t = { s with I := t.I, pc := t.pc, report := .ok } :=
  ⟨_, load, value, s.nextPc_toNat, fun _ _ => rfl, fun _ _ => rfl, rfl⟩

/-! ### What the stores write (44_index_memory.md rules R143 and R144) -/

/-- A store from I puts the digits of a byte at I, I + 1 and I + 2. -/
theorem State.memRead_storeBytes_bcdDigits (s : State) (a : Byte) :
    ((s.storeBytes s.dataBase (bcdDigits a)).memRead s.I.toNat).toNat = a.toNat / 100 ∧
    ((s.storeBytes s.dataBase (bcdDigits a)).memRead (s.I.toNat + 1)).toNat = a.toNat / 10 % 10 ∧
    ((s.storeBytes s.dataBase (bcdDigits a)).memRead (s.I.toNat + 2)).toNat = a.toNat % 10 := by
  have byte := a.isLt
  have digit {d : Nat} (k : Nat) (hk : k < 3) (value : (bcdDigits a)[k] = BitVec.ofNat 8 d) (small : d < 256) :
      ((s.storeBytes s.dataBase (bcdDigits a)).memRead (s.I.toNat + k)).toNat = d := by
    have stored : (s.storeBytes s.dataBase (bcdDigits a)).memRead (s.I.toNat + k) = (bcdDigits a)[k] :=
      s.memRead_storeBytes_at s.dataBase k (bcdDigits a) (by decide : 3 ≤ 4096) hk
    rw [stored, value, BitVec.toNat_ofNat, Nat.mod_eq_of_lt small]
  exact ⟨digit 0 (by decide) rfl (by omega), digit 1 (by decide) rfl (by omega), digit 2 (by decide) rfl (by omega)⟩

theorem State.regBlock_getElem (s : State) (x r : Reg) (h : r.val < (s.regBlock x).length) :
    (s.regBlock x)[r.val] = s.readReg r := by
  simp [State.regBlock, State.readReg]

/-- A store of V0..Vx from I puts each register at its number past I. -/
theorem State.memRead_storeBytes_regBlock (s : State) {x r : Reg} (within : r.val ≤ x.val) :
    (s.storeBytes s.dataBase (s.regBlock x)).memRead (s.I.toNat + r.val) = s.readReg r := by
  have length := s.regBlock_length x
  have position : r.val < (s.regBlock x).length := by omega
  calc (s.storeBytes s.dataBase (s.regBlock x)).memRead (s.I.toNat + r.val)
      = (s.regBlock x)[r.val] := s.memRead_storeBytes_at s.dataBase r.val (s.regBlock x) (by omega) position
    _ = s.readReg r := s.regBlock_getElem x r position

theorem State.indexAfterStore_of_advances {s : State} (x : Reg) (on : s.params.storeAdvancesI = true) :
    (s.indexAfterStore x).toNat = (s.I.toNat + x.val + 1) % 65536 := by
  rw [State.indexAfterStore, if_pos on, BitVec.toNat_ofNat]

theorem State.indexAfterStore_of_stays {s : State} (x : Reg) (off : s.params.storeAdvancesI = false) :
    s.indexAfterStore x = s.I := by
  simp [State.indexAfterStore, off]

/-! ### The statements about the index register and the stores -/

/-- Settles O29: the value loaded is the operand, which keeps its value when it is widened. -/
theorem ldILoadsIndex : Obligations.LdILoadsIndex := by
  unfold Obligations.LdILoadsIndex
  exact fun nnn => ⟨decode_encode (i := .ldI nnn) rfl, fun _ => exec_loadsIndex rfl (zext16_toNat nnn)⟩

/-- Settles O30: the value loaded is the sum modulo 65536, and no register is written. -/
theorem addIAddsToIndex : Obligations.AddIAddsToIndex := by
  unfold Obligations.AddIAddsToIndex
  exact fun x => ⟨decode_encode (i := .addI x) rfl, fun s => exec_loadsIndex rfl (s.indexPlus_toNat x)⟩

/-- Settles O31: the value loaded is the exact product. -/
theorem ldFPointsAtGlyph : Obligations.LdFPointsAtGlyph := by
  unfold Obligations.LdFPointsAtGlyph
  exact fun x => ⟨decode_encode (i := .ldF x) rfl, fun s => exec_loadsIndex rfl (glyphAddress_toNat (s.readReg x))⟩

/-- Settles O32: the bytes stored are the three digits, at the three addresses from I on. -/
theorem ldBStoresDecimal : Obligations.LdBStoresDecimal := by
  unfold Obligations.LdBStoresDecimal
  refine fun x => ⟨decode_encode (i := .ldB x) rfl, fun s => ⟨_, rfl, ?_⟩⟩
  obtain ⟨hundreds, tens, ones⟩ := s.memRead_storeBytes_bcdDigits (s.readReg x)
  exact ⟨hundreds, tens, ones, s.nextPc_toNat, fun _ _ => rfl, s.storeBytes_keepsMem (bcdDigits (s.readReg x)), rfl⟩

/-- Settles O33: the bytes stored are the registers V0..Vx, at the x + 1 addresses from I on, and I is the one that
the parameter chooses. -/
theorem ldMemStoresRegisters : Obligations.LdMemStoresRegisters := by
  unfold Obligations.LdMemStoresRegisters
  refine fun x => ⟨decode_encode (i := .ldMem x) rfl, fun s => ⟨_, rfl, ?_⟩⟩
  have frame := s.storeBytes_keepsMem (s.regBlock x)
  rw [s.regBlock_length] at frame
  exact ⟨fun _ => s.memRead_storeBytes_regBlock, s.indexAfterStore_of_advances x, s.indexAfterStore_of_stays x,
    s.nextPc_toNat, fun _ _ => rfl, frame, rfl⟩

end Sys2Proof.Machine

namespace Sys2Proof.Machine

/-! ### The cells of a sprite (45_draw.md rules R150 and R151) -/

/-- One cell toggled, noting whether it was set: what `blitPixel` does for a 1 bit. -/
def toggleNoting (acc : Display × Bool) (k : Nat) : Display × Bool :=
  (toggleCell acc.1 k, acc.2 || acc.1.getLsbD k)

/-- The cells under the 1 bits of a sprite, in the order in which `blit` comes to them. -/
def spriteCells (X Y : Byte) (rows : Nat → Byte) (n : Nat) : List Nat :=
  ((List.range n ×ˢ List.range 8).filter fun p => spriteBit (rows p.1) p.2).map fun p => cellIndex X Y p.1 p.2

/-- The cells that DRW Vx, Vy, n toggles. -/
def State.drawnCells (s : State) (x y : Reg) (n : BitVec 4) : List Nat :=
  spriteCells (s.readReg x) (s.readReg y) s.spriteRow n.toNat

theorem blit_eq_foldl_toggleNoting (X Y : Byte) (rows : Nat → Byte) (n : Nat) (d : Display) :
    blit X Y rows n d = (spriteCells X Y rows n).foldl toggleNoting (d, false) := by
  have byRows : List.range n ×ˢ List.range 8 = (List.range n).flatMap fun row => (List.range 8).map (row, ·) := rfl
  rw [spriteCells, List.foldl_map, List.foldl_filter, byRows, List.foldl_flatMap]
  simp only [List.foldl_map]
  rfl

theorem mem_spriteCells {X Y : Byte} {rows : Nat → Byte} {n k : Nat} :
    k ∈ spriteCells X Y rows n ↔
      ∃ row < n, ∃ col < 8, spriteBit (rows row) col = true ∧ k = cellIndex X Y row col := by
  simp only [spriteCells, List.mem_map, List.mem_filter, List.mem_product, List.mem_range, Prod.exists]
  constructor
  · rintro ⟨row, col, ⟨⟨hrow, hcol⟩, bit⟩, rfl⟩
    exact ⟨row, hrow, col, hcol, bit, rfl⟩
  · rintro ⟨row, hrow, col, hcol, bit, rfl⟩
    exact ⟨row, col, ⟨⟨hrow, hcol⟩, bit⟩, rfl⟩

/-- Two pixels of one sprite never meet, wrapped or not: a sprite is 8 columns and fewer than 32 rows. -/
theorem cellIndex_inj {X Y : Byte} {row row' col col' : Nat} (hrow : row < 32) (hrow' : row' < 32)
    (hcol : col < 8) (hcol' : col' < 8) (same : cellIndex X Y row col = cellIndex X Y row' col') :
    row = row' ∧ col = col' := by
  simp only [cellIndex] at same
  omega

theorem spriteCells_nodup (X Y : Byte) (rows : Nat → Byte) {n : Nat} (small : n ≤ 32) :
    (spriteCells X Y rows n).Nodup := by
  refine List.Nodup.map_on ?_ ((List.nodup_range.product List.nodup_range).filter _)
  rintro ⟨row, col⟩ hp ⟨row', col'⟩ hp' same
  simp only [List.mem_filter, List.mem_product, List.mem_range] at hp hp'
  obtain ⟨⟨hrow, hcol⟩, -⟩ := hp
  obtain ⟨⟨hrow', hcol'⟩, -⟩ := hp'
  exact Prod.ext_iff.2 (cellIndex_inj (by omega) (by omega) hcol hcol' same)

theorem lt_of_mem_spriteCells {X Y : Byte} {rows : Nat → Byte} {n k : Nat} (h : k ∈ spriteCells X Y rows n) :
    k < 2048 := by
  obtain ⟨row, -, col, -, -, rfl⟩ := mem_spriteCells.1 h
  exact cellIndex_lt X Y row col

/-! ### What toggling distinct cells does (45_draw.md rule R150) -/

/-- Toggling distinct cells one after the other changes each of them once and no other, and since no toggle
reaches a later cell, the flag notes whether one of them was set at the start. -/
theorem foldl_toggleNoting {cells : List Nat} (acc : Display × Bool) (distinct : cells.Nodup)
    (inside : ∀ k ∈ cells, k < 2048) :
    (∀ j, (cells.foldl toggleNoting acc).1.getLsbD j = (acc.1.getLsbD j ^^ decide (j ∈ cells))) ∧
    (cells.foldl toggleNoting acc).2 = (acc.2 || cells.any acc.1.getLsbD) := by
  induction cells generalizing acc with
  | nil => simp
  | cons c cells ih =>
    obtain ⟨notLater, distinct'⟩ := List.nodup_cons.1 distinct
    obtain ⟨hc, inside'⟩ := List.forall_mem_cons.1 inside
    obtain ⟨disp, flag⟩ := ih (toggleNoting acc c) distinct' inside'
    have toggled (j : Nat) : (toggleNoting acc c).1.getLsbD j = (acc.1.getLsbD j ^^ decide (c = j)) :=
      toggleCell_getLsbD acc.1 c j hc
    have later : cells.any (toggleNoting acc c).1.getLsbD = cells.any acc.1.getLsbD := by
      rw [Bool.eq_iff_iff, List.any_eq_true, List.any_eq_true]
      refine exists_congr fun k => and_congr_right fun hk => ?_
      have other : c ≠ k := fun e => notLater (e ▸ hk)
      rw [toggled, decide_eq_false other, Bool.xor_false]
    constructor
    · intro j
      rw [List.foldl_cons, disp, toggled]
      by_cases same : c = j
      · subst same; simp [notLater]
      · simp [same, Ne.symm same]
    · rw [List.foldl_cons, flag, later, List.any_cons, ← Bool.or_assoc]
      rfl

/-! ### What DRW does to the display and to VF (45_draw.md rules R150, R153 and R154) -/

theorem State.mem_drawnCells {s : State} {x y : Reg} {n : BitVec 4} {k : Nat} :
    k ∈ s.drawnCells x y n ↔ SpriteCovers s x y n k := mem_spriteCells

theorem State.blitSprite_spec (s : State) (x y : Reg) (n : BitVec 4) :
    (∀ j, (s.blitSprite x y n).1.getLsbD j = (s.disp.getLsbD j ^^ decide (j ∈ s.drawnCells x y n))) ∧
    (s.blitSprite x y n).2 = (s.drawnCells x y n).any s.disp.getLsbD := by
  have small : n.toNat ≤ 32 := by omega
  rw [State.blitSprite, blit_eq_foldl_toggleNoting]
  exact foldl_toggleNoting (s.disp, false) (spriteCells_nodup _ _ _ small) fun _ => lt_of_mem_spriteCells

theorem flagByte_eq_one_iff (b : Bool) : flagByte b = 1 ↔ b = true := by
  cases b <;> decide

/-- DRW toggles the cells under the sprite. -/
theorem exec_drw_getLsbD {x y : Reg} {n : BitVec 4} {s t : State} (h : exec (.drw x y n) s = .next t) (j : Nat) :
    t.disp.getLsbD j = (s.disp.getLsbD j ^^ decide (j ∈ s.drawnCells x y n)) := by
  cases h
  exact (s.blitSprite_spec x y n).1 j

/-- VF after a DRW is the collision flag. -/
theorem exec_drw_flag {x y : Reg} {n : BitVec 4} {s t : State} (h : exec (.drw x y n) s = .next t) :
    t.readReg regVF = flagByte ((s.drawnCells x y n).any s.disp.getLsbD) := by
  rw [execDrw_readReg h, if_pos rfl, (s.blitSprite_spec x y n).2]

theorem State.any_drawnCells_iff {s : State} {x y : Reg} {n : BitVec 4} (d : Display) :
    (s.drawnCells x y n).any d.getLsbD = true ↔ ∃ k, SpriteCovers s x y n k ∧ d.getLsbD k = true := by
  simp only [List.any_eq_true, State.mem_drawnCells]

/-- A DRW that writes neither of its coordinates can be repeated: its cells stay the same. -/
theorem exec_drw_drawnCells {x y : Reg} {n : BitVec 4} {s t : State} (h : exec (.drw x y n) s = .next t)
    (hx : x ≠ regVF) (hy : y ≠ regVF) : t.drawnCells x y n = s.drawnCells x y n := by
  have kept {r : Reg} (hr : r ≠ regVF) : t.readReg r = s.readReg r :=
    (execDrw_readReg h r).trans (if_neg hr.symm)
  have rows : t.spriteRow = s.spriteRow := by cases h; rfl
  rw [State.drawnCells, kept hx, kept hy, rows, State.drawnCells]

/-! ### Sprites without a 1 bit -/

theorem byte_ne_zero_iff (b : Byte) : b ≠ 0 ↔ ∃ col < 8, spriteBit b col = true := by
  constructor
  · intro ne
    by_contra dark
    refine ne (BitVec.eq_of_getLsbD_eq fun i hi => ?_)
    have off : b.getLsbD (7 - (7 - i)) ≠ true := fun lit => dark ⟨7 - i, by omega, lit⟩
    rw [Nat.sub_sub_self (by omega)] at off
    simpa using off
  · rintro ⟨col, -, lit⟩ rfl
    simp [spriteBit] at lit

/-- A sprite toggles some cell just when one of its rows is not zero. -/
theorem exists_spriteCovers_iff {s : State} {x y : Reg} {n : BitVec 4} :
    (∃ k, SpriteCovers s x y n k) ↔ ∃ row < n.toNat, s.memRead (s.I.toNat + row) ≠ 0 := by
  simp only [byte_ne_zero_iff]
  constructor
  · rintro ⟨k, row, hrow, col, hcol, bit, -⟩
    exact ⟨row, hrow, col, hcol, bit⟩
  · rintro ⟨row, hrow, col, hcol, bit⟩
    exact ⟨_, row, hrow, col, hcol, bit, rfl⟩

/-! ### The statements about DRW -/

/-- Settles O34: the cells under the sprite are distinct, so each is toggled once and the collision is one with
the display at the start. -/
theorem drwXorsSprite : Obligations.DrwXorsSprite := by
  unfold Obligations.DrwXorsSprite
  refine fun x y n => ⟨decode_encode (i := .drw x y n) rfl, fun s => ?_⟩
  obtain ⟨t, ht⟩ := exec_completes (.drw x y n) s
  have frame : KeepsRegs s t [regVF] := registersWrittenAsTabled _ s t ht
  refine ⟨t, ht, fun k _ => ⟨fun covered => ?toggled, fun free => ?kept⟩, fun hit => ?collision,
    fun clear => ?noCollision, ?rest⟩
  case toggled =>
    rw [exec_drw_getLsbD ht, decide_eq_true (State.mem_drawnCells.2 covered), Bool.xor_true]
  case kept =>
    rw [exec_drw_getLsbD ht, decide_eq_false (mt State.mem_drawnCells.1 free), Bool.xor_false]
  case collision =>
    rw [exec_drw_flag ht, (State.any_drawnCells_iff s.disp).2 hit]
    rfl
  case noCollision =>
    rw [exec_drw_flag ht, Bool.eq_false_iff.2 (mt (State.any_drawnCells_iff s.disp).1 clear)]
    rfl
  case rest =>
    cases ht
    exact ⟨rfl, s.nextPc_toNat, frame, fun _ _ => rfl, rfl⟩

/-- Settles O35: both runs toggle the same cells, and on a clear display the second finds set just what the first
has toggled. -/
theorem drawTwiceRestores : Obligations.DrawTwiceRestores := by
  unfold Obligations.DrawTwiceRestores
  intro x y n s hx hy
  obtain ⟨t, ht⟩ := exec_completes (.drw x y n) s
  obtain ⟨u, hu⟩ := exec_completes (.drw x y n) t
  have same := exec_drw_drawnCells ht hx hy
  refine ⟨t, u, ht, hu, ?restored, fun clear => ⟨?first, ?second⟩⟩
  case restored =>
    refine BitVec.eq_of_getLsbD_eq fun j _ => ?_
    rw [exec_drw_getLsbD hu, exec_drw_getLsbD ht, same, Bool.xor_assoc, Bool.xor_self, Bool.xor_false]
  case first =>
    simp [exec_drw_flag ht, clear, flagByte]
  case second =>
    have drawn (k : Nat) : t.disp.getLsbD k = decide (k ∈ s.drawnCells x y n) := by
      simp [exec_drw_getLsbD ht, clear]
    rw [exec_drw_flag hu, flagByte_eq_one_iff, same, State.any_drawnCells_iff,
      ← exists_spriteCovers_iff (x := x) (y := y)]
    simp only [drawn, decide_eq_true_eq, State.mem_drawnCells, and_self]

end Sys2Proof.Machine

namespace Sys2Proof.Machine

/-! ### One count of a timer (10_state.md rule R30, 46_timer.md rule R163) -/

/-- The count never goes below 0: a timer at 0 stays there, since subtraction from 0 gives 0. -/
theorem countDown_toNat_eq_ite (t : Byte) :
    (countDown t).toNat = if t.toNat > 0 then t.toNat - 1 else t.toNat := by
  rw [countDown_toNat]
  split
  case isTrue => rfl
  case isFalse stopped => omega

/-! ### The statements about the timers -/

/-- Settles O36: the value loaded is that of DT, and Vx is the one register written. -/
theorem ldFromDTReadsTimer : Obligations.LdFromDTReadsTimer := by
  unfold Obligations.LdFromDTReadsTimer
  exact fun x => ⟨decode_encode (i := .ldFromDT x) rfl, fun _ => exec_loads rfl⟩

/-- Settles O37: the write of DT replaces its count, and no other field but pc is written. -/
theorem ldDTSetsTimer : Obligations.LdDTSetsTimer := by
  unfold Obligations.LdDTSetsTimer
  exact fun x => ⟨decode_encode (i := .ldDT x) rfl,
    fun s => ⟨_, rfl, rfl, s.nextPc_toNat, fun _ _ => rfl, fun _ _ => rfl, rfl⟩⟩

/-- Settles O38: the write of ST replaces its count, and no other field but pc is written. -/
theorem ldSTSetsSound : Obligations.LdSTSetsSound := by
  unfold Obligations.LdSTSetsSound
  exact fun x => ⟨decode_encode (i := .ldST x) rfl,
    fun s => ⟨_, rfl, rfl, s.nextPc_toNat, fun _ _ => rfl, fun _ _ => rfl, rfl⟩⟩

/-- Settles O51: each timer is counted down on its own, and the tick reads no other field, `halted` included. -/
theorem tickCountsEachTimer : Obligations.TickCountsEachTimer := by
  unfold Obligations.TickCountsEachTimer
  exact fun s => ⟨s.tick, rfl, countDown_toNat_eq_ite s.DT, countDown_toNat_eq_ite s.ST, rfl⟩

end Sys2Proof.Machine

namespace Sys2Proof.Machine

/-! ### The step of a halted machine and at a word that does not decode (60_exceptions.md rules R183, R185) -/

theorem step_of_halted {s : State} (stopped : s.halted = true) : step s = .next (reportHalted s).consumeInputs := by
  rw [step, if_pos stopped]

/-- A running machine at a word that is no instruction raises DecodeFailure (30_encoding.md R75). -/
theorem step_of_decode_error {s : State} {r : DecodeReject} (run : s.halted = false)
    (failed : decode s.fetch = .error r) : step s = .next (raiseDecodeFailure s).consumeInputs := by
  have unhalted : ¬ s.halted = true := by simp [run]
  rw [step, if_neg unhalted, failed]

@[simp] theorem raiseDecodeFailure_report (s : State) : (raiseDecodeFailure s).report = .decodeFailure := by
  rcases raiseDecodeFailure_cases s with ⟨-, e⟩ | ⟨-, e⟩ <;> rw [e]

@[simp] theorem raiseDecodeFailure_cause (s : State) : (raiseDecodeFailure s).cause = 1 := by
  rcases raiseDecodeFailure_cases s with ⟨-, e⟩ | ⟨-, e⟩ <;> rw [e]

/-- Settles O10: the two ways a decode failure can end are told apart by the policy. -/
theorem decodeFailureByPolicy : Obligations.DecodeFailureByPolicy := by
  unfold Obligations.DecodeFailureByPolicy
  rintro s run ⟨r, failed⟩
  have stepped := step_of_decode_error run failed
  rcases raiseDecodeFailure_cases s with ⟨policy, e⟩ | ⟨policy, e⟩ <;> rw [e] at stepped <;> rw [policy]
  · exact ⟨fun _ => ⟨_, stepped, s.nextPc_toNat, rfl⟩, nofun⟩
  · exact ⟨nofun, fun _ => stepped⟩

/-! ### The instructions that this hardware lacks (47_unimplemented_standard.md rule R170) -/

/-- Groups 5 and 9 are empty, and group 8 has four keys (30_encoding.md R79). -/
theorem illegalWord_wordXYN {t n : BitVec 4} (x y : Reg)
    (key : t.toNat = 0x5 ∨ t.toNat = 0x9 ∨ t.toNat = 0x8 ∧ n.toNat ∉ [0x0, 0x2, 0x4, 0x5]) :
    IllegalWord (wordXYN t x y n) := by
  rw [IllegalWord, ← topNibble_toNat, ← fieldN_toNat, topNibble_wordXYN, fieldN_wordXYN]
  exact key.imp_right (Or.imp_right .inl)

/-- Group E has one key, and group F has seven (30_encoding.md R79). -/
theorem illegalWord_wordXKK {t : BitVec 4} {kk : Byte} (x : Reg)
    (key : t.toNat = 0xE ∧ kk.toNat ≠ 0xA1 ∨
      t.toNat = 0xF ∧ kk.toNat ∉ [0x07, 0x15, 0x18, 0x1E, 0x29, 0x33, 0x55]) :
    IllegalWord (wordXKK t x kk) := by
  rw [IllegalWord, ← topNibble_toNat, ← fieldKK_toNat, topNibble_wordXKK, fieldKK_wordXKK]
  exact .inr (.inr (.inr key))

/-- Settles O5: the ten words are in the table of illegal words, whatever their operands. -/
theorem absentInstructionsFailDecode : Obligations.AbsentInstructionsFailDecode := by
  unfold Obligations.AbsentInstructionsFailDecode
  intro x y w absent
  have illegal : IllegalWord w := by
    simp only [List.mem_cons, List.not_mem_nil, or_false] at absent
    obtain rfl | rfl | rfl | rfl | rfl | rfl | rfl | rfl | rfl | rfl := absent
    iterate 7 exact illegalWord_wordXYN x y (by decide)
    iterate 3 exact illegalWord_wordXKK x (by decide)
  have failed : decode w = .error (.unknownOpcode w) := (decode_error_iff w).2 illegal
  refine ⟨failed, fun s run fetched => ⟨_, step_of_decode_error run (fetched ▸ failed), ?_, ?_⟩⟩
  · exact raiseDecodeFailure_report s
  · exact raiseDecodeFailure_cause s

/-! ### The outcomes of a step and of an instruction (47_unimplemented_standard.md R172, 60_exceptions.md R182) -/

/-- Settles O11: a step reports Halted or DecodeFailure, or what its instruction reports, which is Ok or the error
of its own row of R182. -/
theorem everyStepAnswersNext : Obligations.EveryStepAnswersNext := by
  unfold Obligations.EveryStepAnswersNext
  intro s
  rcases step_cases s with ⟨-, e⟩ | ⟨-, -, e⟩ | ⟨i, -, -, e⟩
  · exact ⟨_, e, by simp⟩
  · exact ⟨_, e, by simp⟩
  · obtain ⟨t, ht⟩ := exec_completes i s
    refine ⟨t.consumeInputs, by rw [e, ht]; rfl, ?_⟩
    rcases exec_next_cases ht with ⟨ok, -⟩ | ⟨r, raised, rfl⟩
    · simp [ok]
    · cases raised <;> simp

/-- Settles O48: an instruction keeps the latch, or raises the error of its own row on the row's condition. -/
theorem errorsRaisedAsTabled : Obligations.ErrorsRaisedAsTabled := by
  unfold Obligations.ErrorsRaisedAsTabled
  intro i s t h
  rcases exec_next_cases h with ⟨ok, kept⟩ | ⟨r, raised, rfl⟩
  · exact .inl ⟨ok, kept.halted, kept.cause, kept.epc, kept.eop⟩
  · cases raised with
    | overflow nnn full => exact .inr (.inl ⟨rfl, full, nnn, rfl⟩)
    | underflow empty => exact .inr (.inr (.inl ⟨rfl, empty, rfl⟩))
    | keyIndex x beyond => exact .inr (.inr (.inr ⟨rfl, x, rfl, beyond⟩))

/-! ### Reset and load (70_reset_and_hazards.md rules R210, R211) -/

theorem State.resetLoad_of_fits {image : List Byte} (s : State) (fits : image.length ≤ 3584) :
    s.resetLoad image = s.cleared.storeBytes 512 image := if_pos fits

theorem State.resetLoad_of_long {image : List Byte} (s : State) (long : 3585 ≤ image.length) :
    s.resetLoad image = { s with report := .imageTooLarge } := if_neg (Nat.not_le.2 long)

theorem Memory.unlisted_of_glyph (g : GlyphTable) {a : Nat} (h : a < 80) : Memory.unlisted g a = g[a] := dif_pos h

theorem Memory.unlisted_of_beyond (g : GlyphTable) {a : Nat} (h : 80 ≤ a) : Memory.unlisted g a = 0 :=
  dif_neg (Nat.not_lt.2 h)

/-- An address outside the loaded image reads as reset leaves it (10_state.md R37). -/
theorem State.memRead_load_outside {image : List Byte} (s : State) {a : Nat} (fits : image.length ≤ 3584)
    (inMemory : a < 4096) (outside : a < 512 ∨ 512 + image.length ≤ a) :
    (s.cleared.storeBytes 512 image).memRead a = Memory.unlisted s.params.glyphTable a := by
  have reduced : a % 4096 = a := Nat.mod_eq_of_lt inMemory
  rw [State.memRead_storeBytes_other _ _ _ _ (by omega), State.memRead, reduced]
  exact Memory.read_nil _ a

/-- Settles O53: the image is stored over cleared memory, and every other field is that of the cleared state. -/
theorem resetLoadInitialises : Obligations.ResetLoadInitialises := by
  unfold Obligations.ResetLoadInitialises
  intro s image fits
  refine ⟨_, congrArg Host.Outcome.next (s.resetLoad_of_fits fits), ?glyphs, ?below, ?image, ?above, ?registers,
    ?slots, ?cells, rfl, rfl, rfl, rfl, rfl, rfl, rfl, rfl, rfl, rfl, rfl, rfl, rfl, rfl, rfl⟩
  case glyphs =>
    intro a h
    rw [s.memRead_load_outside fits (by omega) (by omega), Memory.unlisted_of_glyph _ h]
  case below =>
    intro a low high
    rw [s.memRead_load_outside fits (by omega) (by omega), Memory.unlisted_of_beyond _ low]
  case image =>
    intro j h
    exact State.memRead_storeBytes_at _ _ _ _ (by omega) h
  case above =>
    intro a low high
    rw [s.memRead_load_outside fits high (.inr low), Memory.unlisted_of_beyond _ (by omega)]
  case registers => exact fun r => Vector.getElem_replicate r.isLt
  case slots => exact fun k h => Vector.getElem_replicate h
  case cells => exact fun k _ => BitVec.getLsbD_zero

/-- Settles O54: 3584 bytes are the most that fit. -/
theorem longImageRefused : Obligations.LongImageRefused := by
  unfold Obligations.LongImageRefused
  exact fun s _ long => congrArg Host.Outcome.next (s.resetLoad_of_long long)

/-! ### The operations beside the step (60_exceptions.md rules R185, R203) -/

@[simp] theorem State.keyChange_keys (s : State) (k : Keys) : (s.keyChange k).keys = k := rfl

@[simp] theorem State.keyChange_draw (s : State) (k : Keys) : (s.keyChange k).draw = s.draw := rfl

/-- Settles O52: `drawAck` writes only the flag, and `keyChange` only the port that `keys` reads first. -/
theorem drawAckAndKeyChangeEffects : Obligations.DrawAckAndKeyChangeEffects := by
  unfold Obligations.DrawAckAndKeyChangeEffects
  exact fun s => ⟨rfl, fun k => ⟨s.keyChange k, rfl, s.keyChange_keys k, s.keyChange_draw k, rfl⟩⟩

/-- Settles O9: the halted test comes before the fetch, no other operation makes it, and a load that fits starts
from the cleared state, which is not halted. -/
theorem haltedStepChangesNothing : Obligations.HaltedStepChangesNothing := by
  unfold Obligations.HaltedStepChangesNothing
  intro s stopped
  refine ⟨step_of_halted stopped, rfl, rfl, fun image fits => ?_⟩
  exact ⟨_, congrArg Host.Outcome.next (s.resetLoad_of_fits fits), rfl⟩

/-! ### Machines that stand still until a load (60_exceptions.md R185, 70_reset_and_hazards.md R223) -/

theorem FrozenBy.refl (s : State) : FrozenBy s s := rfl

theorem FrozenBy.trans {s t u : State} (first : FrozenBy s t) (second : FrozenBy t u) : FrozenBy s u := by
  unfold FrozenBy at second ⊢
  rw [second, first]

/-- The machines of `P` stand still: a step changes none of the parts that `FrozenBy` keeps, and those parts
alone decide `P`. -/
structure StandsStill (P : State → Prop) : Prop where
  step_frozen : ∀ {s : State}, P s → ∃ t, step s = .next t ∧ FrozenBy s t
  of_frozenBy : ∀ {s t : State}, P s → FrozenBy s t → P t

/-- Every operation but a load leaves a machine that stands still frozen. -/
theorem StandsStill.drive_frozen {P : State → Prop} (still : StandsStill P) {e : Event} {s : State} (h : P s)
    (noLoad : ∀ image, e ≠ .resetLoad image) : ∃ t, drive e s = .next t ∧ FrozenBy s t := by
  cases e with
  | step keys r =>
    have handed : FrozenBy s (s.withInputs keys r) := rfl
    obtain ⟨t, stepped, frozen⟩ := still.step_frozen (still.of_frozenBy h handed)
    exact ⟨t, stepped, handed.trans frozen⟩
  | tick => exact ⟨_, rfl, rfl⟩
  | drawAck => exact ⟨_, rfl, rfl⟩
  | resetLoad image => exact absurd rfl (noLoad image)
  | keyChange keys => exact ⟨_, rfl, rfl⟩

/-- A machine that stands still does so through every sequence of operations without a load. -/
theorem StandsStill.driveAll_frozen {P : State → Prop} (still : StandsStill P) (es : List Event) (s : State)
    (h : P s) (noLoad : ∀ image, Event.resetLoad image ∉ es) :
    ∃ t, driveAll es s = .next t ∧ P t ∧ FrozenBy s t := by
  induction es generalizing s with
  | nil => exact ⟨s, rfl, h, .refl s⟩
  | cons e es ih =>
    have noLoadFirst : ∀ image, e ≠ .resetLoad image :=
      fun image first => noLoad image (first ▸ List.mem_cons_self)
    obtain ⟨t, driven, frozen⟩ := still.drive_frozen h noLoadFirst
    obtain ⟨u, run, hu, frozen'⟩ := ih t (still.of_frozenBy h frozen) fun image m => noLoad image (.tail e m)
    exact ⟨u, (driveAll_cons driven es).trans run, hu, frozen.trans frozen'⟩

theorem standsStill_stoppedAbnormally : StandsStill StoppedAbnormally where
  step_frozen stopped := ⟨_, step_of_halted stopped, rfl⟩
  of_frozenBy stopped frozen := by rw [frozen]; exact stopped

/-- Settles O59: a halted machine only reports that it is, and `halted` is itself frozen. -/
theorem haltedUntilReset : Obligations.HaltedUntilReset := by
  unfold Obligations.HaltedUntilReset
  exact standsStill_stoppedAbnormally.driveAll_frozen

/-- A jump to itself writes the pc that is there already (70_reset_and_hazards.md R223). -/
theorem step_of_stoppedNormally {s : State} (stopped : StoppedNormally s) :
    step s = .next (inputsUsed { s with report := .ok }) := by
  obtain ⟨⟨nnn, decoded, self⟩, run, -⟩ := stopped
  have target : zext16 nnn = s.pc := BitVec.eq_of_toNat_eq ((zext16_toNat nnn).trans self)
  calc step s = mapNext inputsUsed (execJp nnn s) := step_of_decode run decoded
    _ = .next (inputsUsed { s with report := .ok }) := by rw [execJp, target]; rfl

theorem standsStill_stoppedNormally : StandsStill StoppedNormally where
  step_frozen stopped := ⟨_, step_of_stoppedNormally stopped, rfl⟩
  of_frozenBy stopped frozen := by rw [frozen]; exact stopped

/-- Settles O60: the step of a self-jump changes nothing, and what makes it one is frozen. -/
theorem stoppedNormallyStays : Obligations.StoppedNormallyStays := by
  unfold Obligations.StoppedNormallyStays
  exact ⟨fun _ => step_of_stoppedNormally, standsStill_stoppedNormally.driveAll_frozen⟩

/-! ### Sample words (95_test_vectors.md 2.1) -/

/-- Settles O6: all but the last are words of an instruction, CLS and RET with x not 0, and the last has the low
nibble of OR, which is no key of group 8. -/
theorem sampleWordsDecode : Obligations.SampleWordsDecode := by
  unfold Obligations.SampleWordsDecode
  exact ⟨decode_wordXKK_cls 0xA, decode_wordXKK_ret 0xF, decode_encode (i := .sys 0x0E1) (by decide),
    decode_encode (i := .call 0xABC) rfl, decode_encode (i := .seByte 0xA 0x12) rfl,
    decode_encode (i := .ldByte 0xA 0x12) rfl, decode_encode (i := .subReg 0xA 0xB) rfl,
    decode_encode (i := .ldI 0xABC) rfl, decode_encode (i := .drw 0xA 0xB 5) rfl,
    decode_encode (i := .sknp 0xA) rfl, decode_encode (i := .ldDT 0xA) rfl, decode_encode (i := .ldMem 0xA) rfl,
    (decode_error_iff _).2 (illegalWord_wordXYN (t := 0x8) (n := 0x1) 0xA 0xB (by decide))⟩

end Sys2Proof.Machine
